-- ==== Sys2Proof/Word.lean ====
section
/-! DEFINITION. The widths of the machine's values (00_scope.md R6): bytes, 12-bit indexes, 16-bit words, and the
register numbers. All values are unsigned and there is no sign extension (R9). -/

namespace Sys2Proof

/-- A memory cell, a V register, a timer or an 8-bit immediate kk (R6). -/
abbrev Byte := BitVec 8

/-- The index register I and the 12-bit immediate nnn (R6, R65). -/
abbrev Index := BitVec 12

/-- The program counter, a stack slot, an opcode (R6, R64). -/
abbrev Word := BitVec 16

/-- A register number 0..15: V0 to VF (10_state.md R14). -/
abbrev Reg := Fin 16

/-- VF, "dual-purpose: general register AND carry/borrow/collision flag" (R16). -/
abbrev Reg.vf : Reg := 15

/-- A byte holding the flag value 0 or 1 (R16). -/
abbrev Byte.ofFlag (b : Bool) : Byte := if b then 1 else 0

end Sys2Proof
end

