-- ==== Sys2Proof/Syntax.lean ====
section
/-! DEFINITION. The instructions: one constructor per row of spec/opcode_table.json (30_encoding.md R73), with the
operand fields its format uses (R65, R66). -/

namespace Sys2Proof

/-- The 35 instructions. The comment on each is its pattern and the rule of its semantics. -/
inductive Instr where
  /-- 00E0, R136 -/
  | cls
  /-- 00EE, R97 -/
  | ret
  /-- 0nnn other than 00E0 and 00EE, R96 -/
  | sys (nnn : Index)
  /-- 1nnn, R98 -/
  | jp (nnn : Index)
  /-- 2nnn, R99 -/
  | call (nnn : Index)
  /-- 3xkk, R106 -/
  | seImm (x : Reg) (kk : Byte)
  /-- 4xkk, R107 -/
  | sneImm (x : Reg) (kk : Byte)
  /-- 5xyi, R108; the nibble i is not decoded (R76) -/
  | seReg (x y : Reg) (i : BitVec 4)
  /-- 6xkk, R113 -/
  | ldImm (x : Reg) (kk : Byte)
  /-- 7xkk, R114 -/
  | addImm (x : Reg) (kk : Byte)
  /-- 8xy0, R121 -/
  | ldReg (x y : Reg)
  /-- 8xy1, R122 -/
  | orReg (x y : Reg)
  /-- 8xy2, R123 -/
  | andReg (x y : Reg)
  /-- 8xy3, R124 -/
  | xorReg (x y : Reg)
  /-- 8xy4, R125 -/
  | addReg (x y : Reg)
  /-- 8xy5, R126 -/
  | subReg (x y : Reg)
  /-- 8xy6, R127 -/
  | shr (x y : Reg)
  /-- 8xy7, R128 -/
  | subnReg (x y : Reg)
  /-- 8xyE, R129 -/
  | shl (x y : Reg)
  /-- 9xyi, R109; the nibble i is not decoded (R76) -/
  | sneReg (x y : Reg) (i : BitVec 4)
  /-- Annn, R115 -/
  | ldI (nnn : Index)
  /-- Bnnn, R100 -/
  | jpV0 (nnn : Index)
  /-- Cxkk, R116 -/
  | rnd (x : Reg) (kk : Byte)
  /-- Dxyn, R137; n is the number of rows, 0..15 -/
  | drw (x y : Reg) (n : Fin 16)
  /-- Ex9E, R152 -/
  | skp (x : Reg)
  /-- ExA1, R153 -/
  | sknp (x : Reg)
  /-- Fx07, R159 -/
  | ldVxDt (x : Reg)
  /-- Fx0A, R154 -/
  | ldVxK (x : Reg)
  /-- Fx15, R160 -/
  | ldDtVx (x : Reg)
  /-- Fx18, R161 -/
  | ldStVx (x : Reg)
  /-- Fx1E, R162 -/
  | addI (x : Reg)
  /-- Fx29, R163 -/
  | ldF (x : Reg)
  /-- Fx33, R169 -/
  | ldB (x : Reg)
  /-- Fx55, R170 -/
  | ldMemVx (x : Reg)
  /-- Fx65, R171 -/
  | ldVxMem (x : Reg)
  deriving DecidableEq, Repr

end Sys2Proof
end

