-- ==== Sys2Proof/Decode.lean ====
section
/-! DEFINITION. Decoding (30_encoding.md R64 to R78, 40_cycle.md R83): a pure, total function of the 16 bits of the
opcode, by the dispatch of R68 to R72, which names the words it refuses; and the encoder, written from the formats of
R66 and the rows of R73. -/

namespace Sys2Proof

/-- Why bytes are no instruction. -/
inductive DecodeError where
  /-- R74, R177: a word of family 8, E or F with no handler -/
  | malformedOpcode (op : Word)
  /-- fewer than the two bytes every instruction has (R64) -/
  | truncated
  deriving DecidableEq, Repr

/-! ### The fields of R65 -/

/-- t = op[15:12], primary dispatch. -/
def fieldT (op : Word) : BitVec 4 := op.extractLsb' 12 4
/-- x = op[11:8]. -/
def fieldX (op : Word) : Reg := (op.extractLsb' 8 4).toFin
/-- y = op[7:4]. -/
def fieldY (op : Word) : Reg := (op.extractLsb' 4 4).toFin
/-- n = op[3:0], as bits. -/
def fieldN (op : Word) : BitVec 4 := op.extractLsb' 0 4
/-- kk = op[7:0]. -/
def fieldKk (op : Word) : Byte := op.extractLsb' 0 8
/-- nnn = op[11:0]. -/
def fieldNnn (op : Word) : Index := op.extractLsb' 0 12

/-- Two bytes as an opcode, the byte at the lower address high (20_memory.md R47). -/
def wordOfBytes (hi lo : Byte) : Word := hi ++ lo

/-! ### Decode -/

/-- Family 0: the whole word is compared (R69). -/
def decodeFamily0 (op : Word) : Instr :=
  if op = 0x00E0 then .cls else if op = 0x00EE then .ret else .sys (fieldNnn op)

/-- Family 8: secondary dispatch on the low nibble (R70). -/
def decodeFamily8 (op : Word) : Except DecodeError Instr :=
  match (fieldN op).toNat with
  | 0x0 => .ok (.ldReg (fieldX op) (fieldY op))
  | 0x1 => .ok (.orReg (fieldX op) (fieldY op))
  | 0x2 => .ok (.andReg (fieldX op) (fieldY op))
  | 0x3 => .ok (.xorReg (fieldX op) (fieldY op))
  | 0x4 => .ok (.addReg (fieldX op) (fieldY op))
  | 0x5 => .ok (.subReg (fieldX op) (fieldY op))
  | 0x6 => .ok (.shr (fieldX op) (fieldY op))
  | 0x7 => .ok (.subnReg (fieldX op) (fieldY op))
  | 0xE => .ok (.shl (fieldX op) (fieldY op))
  | _ => .error (.malformedOpcode op)

/-- Family E: secondary dispatch on the low byte (R71). -/
def decodeFamilyE (op : Word) : Except DecodeError Instr :=
  match (fieldKk op).toNat with
  | 0x9E => .ok (.skp (fieldX op))
  | 0xA1 => .ok (.sknp (fieldX op))
  | _ => .error (.malformedOpcode op)

/-- Family F: secondary dispatch on the low byte (R72). -/
def decodeFamilyF (op : Word) : Except DecodeError Instr :=
  match (fieldKk op).toNat with
  | 0x07 => .ok (.ldVxDt (fieldX op))
  | 0x0A => .ok (.ldVxK (fieldX op))
  | 0x15 => .ok (.ldDtVx (fieldX op))
  | 0x18 => .ok (.ldStVx (fieldX op))
  | 0x1E => .ok (.addI (fieldX op))
  | 0x29 => .ok (.ldF (fieldX op))
  | 0x33 => .ok (.ldB (fieldX op))
  | 0x55 => .ok (.ldMemVx (fieldX op))
  | 0x65 => .ok (.ldVxMem (fieldX op))
  | _ => .error (.malformedOpcode op)

/-- R68: primary dispatch on the top nibble. In families 5 and 9 the low nibble selects nothing (R76). -/
def decodeWord (op : Word) : Except DecodeError Instr :=
  match (fieldT op).toNat with
  | 0x0 => .ok (decodeFamily0 op)
  | 0x1 => .ok (.jp (fieldNnn op))
  | 0x2 => .ok (.call (fieldNnn op))
  | 0x3 => .ok (.seImm (fieldX op) (fieldKk op))
  | 0x4 => .ok (.sneImm (fieldX op) (fieldKk op))
  | 0x5 => .ok (.seReg (fieldX op) (fieldY op) (fieldN op))
  | 0x6 => .ok (.ldImm (fieldX op) (fieldKk op))
  | 0x7 => .ok (.addImm (fieldX op) (fieldKk op))
  | 0x8 => decodeFamily8 op
  | 0x9 => .ok (.sneReg (fieldX op) (fieldY op) (fieldN op))
  | 0xA => .ok (.ldI (fieldNnn op))
  | 0xB => .ok (.jpV0 (fieldNnn op))
  | 0xC => .ok (.rnd (fieldX op) (fieldKk op))
  | 0xD => .ok (.drw (fieldX op) (fieldY op) (fieldN op).toFin)
  | 0xE => decodeFamilyE op
  | _ => decodeFamilyF op

/-- The instruction at the head of a byte string, and the bytes after it (R64: always two bytes). -/
def decode : List Byte → Except DecodeError (Instr × List Byte)
  | hi :: lo :: rest => (decodeWord (wordOfBytes hi lo)).map fun i => (i, rest)
  | _ => .error .truncated

/-! ### Encode -/

/-- Formats XY, XYN and X: four nibbles, bit 15 on the left (R66). -/
def packNibbles (t : BitVec 4) (x y : Reg) (n : BitVec 4) : Word :=
  t ++ BitVec.ofFin (w := 4) x ++ BitVec.ofFin (w := 4) y ++ n

/-- Formats XKK and X: t, x and the low byte (R66). -/
def packByte (t : BitVec 4) (x : Reg) (kk : Byte) : Word := t ++ BitVec.ofFin (w := 4) x ++ kk

/-- Format NNN (R66). -/
def packIndex (t : BitVec 4) (nnn : Index) : Word := t ++ nnn

/-- The word of an instruction: the row of R73 with its fields filled in. -/
def encode : Instr → Word
  | .cls => 0x00E0
  | .ret => 0x00EE
  | .sys nnn => packIndex 0x0 nnn
  | .jp nnn => packIndex 0x1 nnn
  | .call nnn => packIndex 0x2 nnn
  | .seImm x kk => packByte 0x3 x kk
  | .sneImm x kk => packByte 0x4 x kk
  | .seReg x y i => packNibbles 0x5 x y i
  | .ldImm x kk => packByte 0x6 x kk
  | .addImm x kk => packByte 0x7 x kk
  | .ldReg x y => packNibbles 0x8 x y 0x0
  | .orReg x y => packNibbles 0x8 x y 0x1
  | .andReg x y => packNibbles 0x8 x y 0x2
  | .xorReg x y => packNibbles 0x8 x y 0x3
  | .addReg x y => packNibbles 0x8 x y 0x4
  | .subReg x y => packNibbles 0x8 x y 0x5
  | .shr x y => packNibbles 0x8 x y 0x6
  | .subnReg x y => packNibbles 0x8 x y 0x7
  | .shl x y => packNibbles 0x8 x y 0xE
  | .sneReg x y i => packNibbles 0x9 x y i
  | .ldI nnn => packIndex 0xA nnn
  | .jpV0 nnn => packIndex 0xB nnn
  | .rnd x kk => packByte 0xC x kk
  | .drw x y n => packNibbles 0xD x y (BitVec.ofFin (w := 4) n)
  | .skp x => packByte 0xE x 0x9E
  | .sknp x => packByte 0xE x 0xA1
  | .ldVxDt x => packByte 0xF x 0x07
  | .ldVxK x => packByte 0xF x 0x0A
  | .ldDtVx x => packByte 0xF x 0x15
  | .ldStVx x => packByte 0xF x 0x18
  | .addI x => packByte 0xF x 0x1E
  | .ldF x => packByte 0xF x 0x29
  | .ldB x => packByte 0xF x 0x33
  | .ldMemVx x => packByte 0xF x 0x55
  | .ldVxMem x => packByte 0xF x 0x65

/-- The high byte of a word, which stands at the lower address (R47). -/
def highByte (w : Word) : Byte := w.extractLsb' 8 8
/-- The low byte of a word, which stands at the higher address (R47). -/
def lowByte (w : Word) : Byte := w.extractLsb' 0 8

/-- The two bytes of an instruction in memory order (R47, R64). -/
def encodeBytes (i : Instr) : List Byte := [highByte (encode i), lowByte (encode i)]

/-! ### The opcode table -/

/-- The mask of an instruction's row in R73. -/
def tableMask : Instr → Word
  | .cls | .ret => 0xFFFF
  | .sys _ | .jp _ | .call _ | .seImm _ _ | .sneImm _ _ | .seReg _ _ _ | .ldImm _ _ | .addImm _ _ | .sneReg _ _ _
  | .ldI _ | .jpV0 _ | .rnd _ _ | .drw _ _ _ => 0xF000
  | .ldReg _ _ | .orReg _ _ | .andReg _ _ | .xorReg _ _ | .addReg _ _ | .subReg _ _ | .shr _ _ | .subnReg _ _
  | .shl _ _ => 0xF00F
  | .skp _ | .sknp _ | .ldVxDt _ | .ldVxK _ | .ldDtVx _ | .ldStVx _ | .addI _ | .ldF _ | .ldB _ | .ldMemVx _
  | .ldVxMem _ => 0xF0FF

/-- The match value of an instruction's row in R73. -/
def tableMatch : Instr → Word
  | .cls => 0x00E0
  | .ret => 0x00EE
  | .sys _ => 0x0000
  | .jp _ => 0x1000
  | .call _ => 0x2000
  | .seImm _ _ => 0x3000
  | .sneImm _ _ => 0x4000
  | .seReg _ _ _ => 0x5000
  | .ldImm _ _ => 0x6000
  | .addImm _ _ => 0x7000
  | .ldReg _ _ => 0x8000
  | .orReg _ _ => 0x8001
  | .andReg _ _ => 0x8002
  | .xorReg _ _ => 0x8003
  | .addReg _ _ => 0x8004
  | .subReg _ _ => 0x8005
  | .shr _ _ => 0x8006
  | .subnReg _ _ => 0x8007
  | .shl _ _ => 0x800E
  | .sneReg _ _ _ => 0x9000
  | .ldI _ => 0xA000
  | .jpV0 _ => 0xB000
  | .rnd _ _ => 0xC000
  | .drw _ _ _ => 0xD000
  | .skp _ => 0xE09E
  | .sknp _ => 0xE0A1
  | .ldVxDt _ => 0xF007
  | .ldVxK _ => 0xF00A
  | .ldDtVx _ => 0xF015
  | .ldStVx _ => 0xF018
  | .addI _ => 0xF01E
  | .ldF _ => 0xF029
  | .ldB _ => 0xF033
  | .ldMemVx _ => 0xF055
  | .ldVxMem _ => 0xF065

/-! ### The host's view -/

/-- The bytes in memory of an instruction whose bits are `w`, bit 0 the least significant bit of its one word, of which
the table gives `nbits`; the bits above them are 0. None where what is left is longer than an instruction (R64). -/
def tableBytes (nbits w : Nat) : Option (List Byte) :=
  if w % 2 ^ nbits < 2 ^ 16 then
    let op := BitVec.ofNat 16 (w % 2 ^ nbits)
    some [highByte op, lowByte op]
  else none

/-- What the decoder reads from those bytes. -/
def decodeTableWord (nbits w : Nat) : Option Instr :=
  match tableBytes nbits w with
  | some bytes => (decode bytes).toOption.map Prod.fst
  | none => none

end Sys2Proof
end

