-- ==== Sys2Proof/Config.lean ====
section
/-! DEFINITION. What one instance of the hardware fixes (the open parameters of 00_scope.md R7) and the free value
behind the random input (10_state.md R38). The values the parameters have after reset are in Machine/Params.lean. -/

namespace Sys2Proof

/-- SYS_POLICY of R7: what `0nnn` other than 00E0 and 00EE does (D3). -/
inductive SysPolicy where
  /-- the instruction only advances pc -/
  | nop
  /-- the instruction raises MalformedOpcode -/
  | fault
  deriving DecidableEq, Repr

/-- SHIFT_SOURCE of R7: which register 8xy6 and 8xyE shift (D7). -/
inductive ShiftSource where
  | vx
  | vy
  deriving DecidableEq, Repr

/-- FONT of R7: the 80 bytes reset puts at 0x000..0x04F (10_state.md R24). -/
abbrev Font := Vector Byte 80

/-- The named arguments of the model, R7: "Nothing else is a parameter." -/
structure Config where
  sysPolicy   : SysPolicy
  shiftSource : ShiftSource
  font        : Font
  deriving DecidableEq, Repr

/-- The byte on the input `rand` at the n-th draw, where the host has supplied none: a free value, under no law
(10_state.md R38, D19; log 5). -/
opaque Config.freeRandomByte : Nat → Byte

end Sys2Proof
end

