-- ==== Sys2Proof/Machine/Params.lean ====
section
/-! DEFINITION. The values the open parameters of 00_scope.md R7 have in `State.reset`: "the default this spec uses in
every worked example and test vector". No statement about all states depends on them: the parameters are a field of
State (log 1). -/

namespace Sys2Proof.Machine

/-- Glyphs 0 to 3 of R24. PRESUMED: "[from general knowledge, not in source]" (log 2). -/
def fontGlyphs0to3 : Vector Byte 20 :=
  #v[0xF0, 0x90, 0x90, 0x90, 0xF0,  0x20, 0x60, 0x20, 0x20, 0x70,
     0xF0, 0x10, 0xF0, 0x80, 0xF0,  0xF0, 0x10, 0xF0, 0x10, 0xF0]

/-- Glyphs 4 to 7 of R24 (log 2). -/
def fontGlyphs4to7 : Vector Byte 20 :=
  #v[0x90, 0x90, 0xF0, 0x10, 0x10,  0xF0, 0x80, 0xF0, 0x10, 0xF0,
     0xF0, 0x80, 0xF0, 0x90, 0xF0,  0xF0, 0x10, 0x20, 0x40, 0x40]

/-- Glyphs 8 to B of R24 (log 2). -/
def fontGlyphs8toB : Vector Byte 20 :=
  #v[0xF0, 0x90, 0xF0, 0x90, 0xF0,  0xF0, 0x90, 0xF0, 0x10, 0xF0,
     0xF0, 0x90, 0xF0, 0x90, 0x90,  0xE0, 0x90, 0xE0, 0x90, 0xE0]

/-- Glyphs C to F of R24 (log 2). -/
def fontGlyphsCtoF : Vector Byte 20 :=
  #v[0xF0, 0x80, 0x80, 0x80, 0xF0,  0xE0, 0x90, 0x90, 0x90, 0xE0,
     0xF0, 0x80, 0xF0, 0x80, 0xF0,  0xF0, 0x80, 0xF0, 0x80, 0x80]

/-- The default of FONT: 16 glyphs of 5 bytes, glyph d at 5 * d (R24, D23). PRESUMED (log 2). -/
def defaultFont : Font := fontGlyphs0to3 ++ fontGlyphs4to7 ++ fontGlyphs8toB ++ fontGlyphsCtoF

/-- The default of SYS_POLICY is NOP (R7, D3; log 3). -/
def defaultSysPolicy : SysPolicy := .nop

/-- The default of SHIFT_SOURCE is VX (R7, D7; log 4). -/
def defaultShiftSource : ShiftSource := .vx

/-- The defaults of R7 together (log 1). -/
def defaultConfig : Config :=
  { sysPolicy := defaultSysPolicy, shiftSource := defaultShiftSource, font := defaultFont }

end Sys2Proof.Machine
end

