-- ==== Sys2Proof/Machine/State.lean ====
section
/-! DEFINITION. The Machine State (10_state.md R13): every field the spec gives the machine, the handshake in progress,
and, as plain data, the parameters and the environment (INVENTORY.md, State). -/

namespace Sys2Proof.Machine

/-- `run` (R29): "the interpreter has no internal states beyond 'running' and 'halted-on-error'". -/
inductive RunState where
  | running
  | halted
  deriving DecidableEq, Repr

/-- `err.kind` (60_exceptions.md R183); its numeric code is `ErrKind.code` (Machine/Ops.lean). -/
inductive ErrKind where
  /-- no fault since reset -/
  | none
  /-- R177 -/
  | malformedOpcode
  /-- R178 -/
  | stackUnderflow
  /-- R179 -/
  | stackOverflow
  /-- R180 -/
  | addressViolation
  /-- R181 -/
  | keyIndexViolation
  deriving DecidableEq, Repr

/-- `err`, the diagnostic record a fault writes (R30, R191). -/
structure ErrRecord where
  kind   : ErrKind
  pc     : Word
  opcode : Word
  info   : Word
  deriving DecidableEq, Repr

/-- `fb[y][x]` (R26): 32 rows, row 0 the top row, of 64 columns; true is on. -/
abbrev Framebuffer := Vector (Vector Bool 64) 32

/-- The machine. -/
structure State where
  /-- the parameters of R7, fixed for one machine: no step writes them (log 1) -/
  cfg       : Config
  /-- memory: the cells that differ from what reset left there, in canonical form (R22; Machine/Memory.lean) -/
  mem       : List Host.Cell
  /-- V0..VF (R14) -/
  V         : Vector Byte 16
  /-- the index register (R17) -/
  I         : Index
  /-- the program counter (R18) -/
  pc        : Word
  /-- the call stack's slots (R21) -/
  stack     : Vector Word 16
  /-- the stack pointer, 0..16, "indexes the next free slot" (R21) -/
  sp        : Fin 17
  /-- delay_timer (R25) -/
  dt        : Byte
  /-- sound_timer (R25) -/
  st        : Byte
  /-- the framebuffer (R26) -/
  fb        : Framebuffer
  /-- the key latch, written by the host only (R28) -/
  keys      : Vector Bool 16
  /-- RUNNING or HALTED (R29) -/
  run       : RunState
  /-- the error record (R30) -/
  err       : ErrRecord
  /-- "framebuffer changed", alive inside one step (R32); false between steps (log 9) -/
  dirty     : Bool
  /-- the block is held inside the ReadKey handshake of an Fx0A (R40, R154; log 6) -/
  waiting   : Bool
  /-- bytes the host has put on the input `rand`, oldest first (R38; log 5) -/
  randIn    : List Byte
  /-- how many random bytes have been drawn: the index of the free value (log 5) -/
  randDrawn : Nat
  /-- the host's answers to ReadKey not yet taken, oldest first (R40; log 6) -/
  keyIn     : List (BitVec 4)
  /-- the flags handed to the host by NotifyFrame, newest first (R39, R90; log 8) -/
  frames    : List Bool
  deriving DecidableEq, Repr

/-- Why a step has no next state. -/
inductive Fault where
  /-- Raised by `step` alone, when run = HALTED: "A model gives a HALTED state no successor" (40_cycle.md R88). Safe:
  nothing can be proved of a step the hardware does not take. -/
  | halted
  deriving DecidableEq, Repr

/-- Why an instruction has no meaning. -/
inductive Refusal where
  /-- Raised by an arm of `exec` whose instruction is not modelled; no arm is. Safe. -/
  | notModelled (mnemonic : String)
  deriving DecidableEq, Repr

/-- What a meaning and a step answer with. -/
abbrev Result := Host.Outcome State Fault Refusal

/-- The machine with parameters `cfg` right after reset (10_state.md R34, 70_reset_and_hazards.md R206). The stack slots,
`run` and `err` have the values of decision D22 (log 11); the fields after `err` are the model's own (log 5, 6, 8, 9). -/
def State.resetWith (cfg : Config) : State where
  cfg       := cfg
  mem       := []
  V         := Vector.replicate 16 0
  I         := 0
  pc        := 0x200
  stack     := Vector.replicate 16 0
  sp        := 0
  dt        := 0
  st        := 0
  fb        := Vector.replicate 32 (Vector.replicate 64 false)
  keys      := Vector.replicate 16 false
  run       := .running
  err       := { kind := .none, pc := 0, opcode := 0, info := 0 }
  dirty     := false
  waiting   := false
  randIn    := []
  randDrawn := 0
  keyIn     := []
  frames    := []

/-- The machine right after reset, with the default parameters of R7 (log 1). -/
def State.reset : State := .resetWith defaultConfig

end Sys2Proof.Machine
end

