-- ==== Sys2Proof/Machine/Memory.lean ====
section
/-! DEFINITION. Memory (10_state.md R22, 20_memory.md R46 to R55): 4096 byte cells held as the list of those that
differ from what reset left there, addresses strictly rising. -/

namespace Sys2Proof.Machine

/-- MEM_SIZE (00_scope.md R6). -/
def memSize : Nat := 4096

/-- What an unlisted address reads as: what reset leaves there, FONT in 0x000..0x04F and 0 elsewhere (R34; log 12). -/
def Memory.initial (font : Font) (a : Nat) : Byte := if h : a < 80 then font[a] else 0

/-- The listed byte at an address, if any. -/
def Memory.lookup (a : Nat) : List Host.Cell → Option Byte
  | [] => none
  | (b, v) :: m => if a = b then some v else lookup a m

/-- `mem[a]`: raw access, no check (R10). -/
def Memory.read (font : Font) (m : List Host.Cell) (a : Nat) : Byte :=
  (Memory.lookup a m).getD (Memory.initial font a)

/-- The list without any entry for `a`. -/
def Memory.erase (a : Nat) : List Host.Cell → List Host.Cell
  | [] => []
  | (b, w) :: m => if a = b then erase a m else (b, w) :: erase a m

/-- The list with the entry `(a, v)`, in its place. -/
def Memory.insert (a : Nat) (v : Byte) : List Host.Cell → List Host.Cell
  | [] => [(a, v)]
  | (b, w) :: m =>
    if a < b then (a, v) :: (b, w) :: m
    else if a = b then (a, v) :: m
    else (b, w) :: insert a v m

/-- `mem[a] <- v`: changes exactly the addressed cell (10_state.md R36) and keeps the canonical form. -/
def Memory.write (font : Font) (m : List Host.Cell) (a : Nat) (v : Byte) : List Host.Cell :=
  if v = Memory.initial font a then Memory.erase a m else Memory.insert a v m

/-- Every listed address lies above `lo`, the addresses rise strictly, lie in the address space (R22), and no entry
equals what an unlisted address reads as. -/
def Memory.wfFrom (font : Font) : Option Nat → List Host.Cell → Bool
  | _, [] => true
  | lo, (a, v) :: m =>
    lo.all (· < a) && decide (a < memSize) && v != Memory.initial font a && wfFrom font (some a) m

/-- The canonical form. -/
def Memory.wf (font : Font) (m : List Host.Cell) : Bool := Memory.wfFrom font none m

/-- `mem[a]` of the machine. -/
def State.readByte (s : State) (a : Nat) : Byte := Memory.read s.cfg.font s.mem a

/-- `mem[a] <- v` of the machine. -/
def State.writeByte (s : State) (a : Nat) (v : Byte) : State :=
  { s with mem := Memory.write s.cfg.font s.mem a v }

/-- The bytes at `base`, `base + 1`, ..., `count` of them, in ascending order (R48). -/
def State.readBlock (s : State) (base count : Nat) : List Byte :=
  (List.range count).map fun k => s.readByte (base + k)

/-- The bytes of a list stored at `base`, `base + 1`, ... in ascending order (R48). -/
def State.writeBlock (s : State) (base : Nat) : List Byte → State
  | [] => s
  | v :: vs => (s.writeByte base v).writeBlock (base + 1) vs

end Sys2Proof.Machine
end

