-- ==== Sys2Proof/Machine/Ops.lean ====
section
/-! DEFINITION. The named operations the meanings share: registers, pc, stack, timers, the fault every exception of the
machine is (60_exceptions.md R190), and the two inputs drawn from the host. -/

namespace Sys2Proof.Machine

/-! ### Registers and pc -/

/-- `V[x]` (R10). -/
def State.readV (s : State) (x : Reg) : Byte := s.V[x]

/-- `V[x] <- v` (R10). No register is hardwired (R14). -/
def State.writeV (s : State) (x : Reg) (v : Byte) : State := { s with V := s.V.set x v }

/-- `VF <- flag`, written last (R120). -/
def State.writeFlag (s : State) (b : Bool) : State := s.writeV Reg.vf (Byte.ofFlag b)

/-- `I <- v` (R17). -/
def State.setI (s : State) (v : Index) : State := { s with I := v }

/-- `pc <- target` (R18). -/
def State.setPc (s : State) (target : Word) : State := { s with pc := target }

/-- `pc <- pc + n`, 16 bits (R19). -/
def State.advance (s : State) (n : Word) : State := s.setPc (s.pc + n)

/-- Skip: "advancing pc by 4 instead of 2" (R12). -/
def State.skipIf (s : State) (c : Bool) : State := s.advance (if c then 4 else 2)

/-! ### Timers, framebuffer -/

/-- `DT <- v` (R25). -/
def State.setDt (s : State) (v : Byte) : State := { s with dt := v }

/-- `ST <- v` (R25). -/
def State.setSt (s : State) (v : Byte) : State := { s with st := v }

/-- The framebuffer written back (R37). -/
def State.setFb (s : State) (fb : Framebuffer) : State := { s with fb := fb }

/-- `dirty <- 1` (R87). -/
def State.markDirty (s : State) : State := { s with dirty := true }

/-! ### The call stack (R21) -/

/-- `stack[sp] <- w; sp <- sp + 1`; none when the stack is full. -/
def State.push (s : State) (w : Word) : Option State :=
  if h : s.sp.val < 16 then
    some { s with stack := s.stack.set s.sp.val w h, sp := ⟨s.sp.val + 1, by omega⟩ }
  else none

/-- `sp <- sp - 1` and the value of `stack[sp]`, "the slot is left as it was"; none when the stack is empty. -/
def State.pop (s : State) : Option (Word × State) :=
  if h : 0 < s.sp.val then
    some (s.stack[s.sp.val - 1], { s with sp := ⟨s.sp.val - 1, by omega⟩ })
  else none

/-! ### Taking an exception -/

/-- The number of a fault kind (R183, D20). -/
def ErrKind.code : ErrKind → BitVec 3
  | .none => 0
  | .malformedOpcode => 1
  | .stackUnderflow => 2
  | .stackOverflow => 3
  | .addressViolation => 4
  | .keyIndexViolation => 5

/-- `raise`: `run <- HALTED; err <- (kind, pc, opcode, info)`, "Nothing else" (R190, R191). There is no handler (R189)
and no return from it but reset (R193), which is `State.hostReset` (Machine/HostMoves.lean). -/
def State.raise (s : State) (kind : ErrKind) (opcode info : Word) : State :=
  { s with run := .halted, err := { kind := kind, pc := s.pc, opcode := opcode, info := info } }

/-- The lowest out-of-range address of an access that starts at `base` and runs out of range (R55, R180, R183). -/
def firstBadAddress (base : Nat) : Word := BitVec.ofNat 16 (max base memSize)

/-! ### Inputs drawn at execution (R90) -/

/-- `RandomByte()` (R11, R38): the next byte the host supplied, else the free value of this draw (log 5). -/
def State.randomByte (s : State) : Byte := s.randIn.headD (Config.freeRandomByte s.randDrawn)

/-- The state after the draw. -/
def State.afterDraw (s : State) : State :=
  { s with randIn := s.randIn.tail, randDrawn := s.randDrawn + 1 }

/-- The block holds inside ReadKey: nothing changes while it waits (R40; log 6). -/
def State.await (s : State) : State := { s with waiting := true }

/-- The state after ReadKey has returned: the answer is taken and the wait is over (R40). -/
def State.answered (s : State) : State := { s with keyIn := s.keyIn.tail, waiting := false }

end Sys2Proof.Machine
end

