-- ==== Sys2Proof/Machine/Cycle.lean ====
section
/-! DEFINITION. The parts of the step around Execute (40_cycle.md R81 to R89): its start, fetch and decode, the timer
tick, the host notification. -/

namespace Sys2Proof.Machine

/-- `dirty <- 0`, the first thing a step does (R81). A step that resumes an Fx0A held inside ReadKey runs it again from
its fetch, which finds the same word (R40: nothing changed while it waited; log 34), so the wait is open again only if
this step's Fx0A finds no answer. -/
def State.beginStep (s : State) : State := { s with dirty := false, waiting := false }

/-- Fetch (R82): the word at pc, high byte first (R47), or the lowest out-of-range address. -/
def State.fetch (s : State) : Except Word Word :=
  if s.pc.toNat + 1 < memSize then
    .ok (wordOfBytes (s.readByte s.pc.toNat) (s.readByte (s.pc.toNat + 1)))
  else .error (firstBadAddress s.pc.toNat)

/-- Fetch and decode (R82, R83): the instruction, or the state after the exception: AddressViolation with err.opcode
0x0000, "no word was fetched" (R191), or MalformedOpcode with the word in both fields (R177, R183). -/
def State.fetchDecode (s : State) : Except State Instr :=
  match s.fetch with
  | .error bad => .error (s.raise .addressViolation 0x0000 bad)
  | .ok op =>
    match decodeWord op with
    | .error _ => .error (s.raise .malformedOpcode op op)
    | .ok i => .ok i

/-- `if t > 0: t <- t - 1`. -/
def tickTimer (t : Byte) : Byte := if t.toNat > 0 then t - 1 else t

/-- TimerTick (R85). -/
def State.tick (s : State) : State := { s with dt := tickTimer s.dt, st := tickTimer s.st }

/-- NotifyFrame(dirty) (R39, R86): the flag is handed to the host and then forgotten (R32). -/
def State.notify (s : State) : State := { s with frames := s.dirty :: s.frames, dirty := false }

/-- The end of a step after Execute: tick and notify, but not after a fault (R89) and not while the instruction is still
inside ReadKey (R154: one tick, after the answer). -/
def finishStep : Result → Result
  | .next t => if t.run = .halted ∨ t.waiting = true then .next t else .next t.tick.notify
  | .fault r => .fault r
  | .refused r => .refused r

/-- The bytes of a list stored from `s.pc` on, those in the address space: what the host's loader does for one
instruction (R43). -/
def State.placeAtPc (s : State) (bytes : List Byte) : State :=
  if s.pc.toNat + bytes.length ≤ memSize then s.writeBlock s.pc.toNat bytes else s

end Sys2Proof.Machine
end

