-- ==== Sys2Proof/Machine/Flags.lean ====
section
/-! DEFINITION. Every result and flag computation of the machine (10_state.md R16, 44_alu.md R130), each from the exact
result on unbounded naturals or from the bit shifted out. -/

namespace Sys2Proof.Machine

/-- (a + b) mod 256 (R114, R125). -/
def addResult (a b : Byte) : Byte := BitVec.ofNat 8 (a.toNat + b.toNat)

/-- VF of 8xy4: 1 if the exact sum exceeds 255 (R125). -/
def addCarry (a b : Byte) : Bool := decide (a.toNat + b.toNat > 255)

/-- (a - b) mod 256 (R126, R128). -/
def subResult (a b : Byte) : Byte := BitVec.ofNat 8 (a.toNat + 256 - b.toNat)

/-- VF of 8xy5 and 8xy7: 1 if there is no borrow, a >= b (R126, R128). -/
def subNoBorrow (a b : Byte) : Bool := decide (a.toNat ≥ b.toNat)

/-- s >> 1, logical (R127). -/
def shrResult (s : Byte) : Byte := s >>> 1

/-- VF of 8xy6: bit 0 of the source before the shift (R127). -/
def shrOut (s : Byte) : Bool := s.getLsbD 0

/-- (s << 1) mod 256 (R129). -/
def shlResult (s : Byte) : Byte := s <<< 1

/-- VF of 8xyE: bit 7 of the source before the shift (R129). -/
def shlOut (s : Byte) : Bool := s.getLsbD 7

/-- (I + a) mod 4096 (R162). -/
def indexAddResult (i : Index) (a : Byte) : Index := BitVec.ofNat 12 (i.toNat + a.toNat)

/-- VF of Fx1E: 1 if the exact sum exceeds 0xFFF (R162). -/
def indexAddCarry (i : Index) (a : Byte) : Bool := decide (i.toNat + a.toNat > 0xFFF)

/-- 5 * v, which fits 12 bits (R163). -/
def glyphAddress (v : Byte) : Index := BitVec.ofNat 12 (5 * v.toNat)

/-- nnn + V0 in 16 bits, not cut to 12 (R100). -/
def offsetTarget (nnn : Index) (v0 : Byte) : Word := nnn.setWidth 16 + v0.setWidth 16

end Sys2Proof.Machine
end

