-- ==== Sys2Proof/Machine/Operands.lean ====
section
/-! DEFINITION. The operand forms: the source of a shift (44_alu.md R127), the extent of an I-relative access
(48_memory_transfer.md R168, 20_memory.md R55), the registers V0..Vx of a block transfer (R170, R171), the decimal digits
of R169, and the pixels of a sprite (45_display.md R137 to R139). -/

namespace Sys2Proof.Machine

/-- The register 8xy6 and 8xyE shift: Vx or Vy by SHIFT_SOURCE (R127, R129). -/
def State.shiftOperand (s : State) (x y : Reg) : Byte :=
  match s.cfg.shiftSource with
  | .vx => s.readV x
  | .vy => s.readV y

/-- The addresses I, I + 1, ..., `count` of them, are all at most 0xFFF (R54, R55). With count = 0 it always holds. -/
def State.extentInRange (s : State) (count : Nat) : Bool := decide (s.I.toNat + count ≤ memSize)

/-- An instruction that touches `count` bytes from I: AddressViolation before anything is written if one of them is out
of range (R55), else `body`. -/
def State.withExtent (s : State) (op : Word) (count : Nat) (body : State → Result) : Result :=
  if s.extentInRange count then body s
  else .next (s.raise .addressViolation op (firstBadAddress s.I.toNat))

/-- V0 to VF. -/
def allRegs : List Reg := [0, 1, 2, 3, 4, 5, 6, 7, 8, 9, 10, 11, 12, 13, 14, 15]

/-- V0 to Vx inclusive (R170, R171). -/
def regsUpTo (x : Reg) : List Reg := allRegs.take (x.val + 1)

/-- Hundreds, tens, units, each in its own byte (R169). -/
def decimalDigits (v : Byte) : List Byte :=
  [BitVec.ofNat 8 (v.toNat / 100), BitVec.ofNat 8 (v.toNat / 10 % 10), BitVec.ofNat 8 (v.toNat % 10)]

/-! ### Sprites -/

/-- The columns of the 1 bits of a row byte drawn at column x0: bit 7 is column x0, bit 0 column x0 + 7 (R138; log 19). -/
def rowColumns (x0 : Nat) (row : Byte) : List Nat :=
  ((List.range 8).filter fun c => row.getLsbD (7 - c)).map (x0 + ·)

/-- The (row, column) positions of the 1 bits of a sprite whose top left corner is (x0, y0), in the order R137 visits
them; not reduced and not yet clipped (R139). -/
def spritePositions (x0 y0 : Nat) : List Byte → List (Nat × Nat)
  | [] => []
  | row :: rows => (rowColumns x0 row).map (fun c => (y0, c)) ++ spritePositions x0 (y0 + 1) rows

/-- Read-modify-write of one pixel: invert it and report whether it was on (R37). A position off the grid is dropped:
"not read, not written and cannot collide" (R139). -/
def Framebuffer.togglePixel (fb : Framebuffer) (p : Nat × Nat) : Framebuffer × Bool :=
  if h : p.1 < 32 ∧ p.2 < 64 then
    (fb.set p.1 (fb[p.1].set p.2 (!fb[p.1][p.2])), fb[p.1][p.2])
  else (fb, false)

/-- The pixels of a list toggled one after another, with the collision flag so far (R137, R140). -/
def Framebuffer.toggleAll : Framebuffer → Bool → List (Nat × Nat) → Framebuffer × Bool
  | fb, collision, [] => (fb, collision)
  | fb, collision, p :: ps =>
    Framebuffer.toggleAll (Framebuffer.togglePixel fb p).1 (collision || (Framebuffer.togglePixel fb p).2) ps

/-- All pixels off (R136). -/
def Framebuffer.clear : Framebuffer := Vector.replicate 32 (Vector.replicate 64 false)

end Sys2Proof.Machine
end

