-- ==== Sys2Proof/Machine/Alu.lean ====
section
/-! DEFINITION. Family 8 (44_alu.md R120 to R129). Operands are read before anything is written and the flag is written
last (R120; log 14). -/

namespace Sys2Proof.Machine

/-- `V[x] <- result; pc <- pc + 2`, no flag (R121 to R124; log 15). -/
def State.aluPlain (s : State) (x : Reg) (result : Byte) : Result := .next ((s.writeV x result).advance 2)

/-- `V[x] <- result; VF <- flag; pc <- pc + 2`, in that order (R120). -/
def State.aluFlag (s : State) (x : Reg) (result : Byte) (flag : Bool) : Result :=
  .next (((s.writeV x result).writeFlag flag).advance 2)

/-- R121. -/
def execLdReg (x y : Reg) (s : State) : Result := s.aluPlain x (s.readV y)

/-- R122. -/
def execOrReg (x y : Reg) (s : State) : Result := s.aluPlain x (s.readV x ||| s.readV y)

/-- R123. -/
def execAndReg (x y : Reg) (s : State) : Result := s.aluPlain x (s.readV x &&& s.readV y)

/-- R124. -/
def execXorReg (x y : Reg) (s : State) : Result := s.aluPlain x (s.readV x ^^^ s.readV y)

/-- R125. -/
def execAddReg (x y : Reg) (s : State) : Result :=
  s.aluFlag x (addResult (s.readV x) (s.readV y)) (addCarry (s.readV x) (s.readV y))

/-- R126: Vx minus Vy. -/
def execSubReg (x y : Reg) (s : State) : Result :=
  s.aluFlag x (subResult (s.readV x) (s.readV y)) (subNoBorrow (s.readV x) (s.readV y))

/-- R127. -/
def execShr (x y : Reg) (s : State) : Result :=
  s.aluFlag x (shrResult (s.shiftOperand x y)) (shrOut (s.shiftOperand x y))

/-- R128: Vy minus Vx. -/
def execSubnReg (x y : Reg) (s : State) : Result :=
  s.aluFlag x (subResult (s.readV y) (s.readV x)) (subNoBorrow (s.readV y) (s.readV x))

/-- R129. -/
def execShl (x y : Reg) (s : State) : Result :=
  s.aluFlag x (shlResult (s.shiftOperand x y)) (shlOut (s.shiftOperand x y))

end Sys2Proof.Machine
end

