-- ==== Sys2Proof/Machine/Display.lean ====
section
/-! DEFINITION. CLS and DRW (45_display.md R136 to R140). -/

namespace Sys2Proof.Machine

/-- R136: every pixel off; dirty stays 0 (R87). -/
def execCls (s : State) : Result := .next ((s.setFb Framebuffer.clear).advance 2)

/-- What DRW does once its n bytes are in range: XOR the sprite at (Vx, Vy), VF <- collision last, dirty <- 1 (R137). -/
def State.drawSprite (s : State) (x y : Reg) (n : Nat) : State :=
  let drawn := Framebuffer.toggleAll s.fb false
    (spritePositions (s.readV x).toNat (s.readV y).toNat (s.readBlock s.I.toNat n))
  (((s.setFb drawn.1).writeFlag drawn.2).markDirty).advance 2

/-- R137: the n sprite bytes are range-checked, those of clipped rows too (R139; log 18). -/
def execDrw (x y : Reg) (n : Fin 16) (s : State) : Result :=
  s.withExtent (encode (.drw x y n)) n.val fun s => .next (s.drawSprite x y n.val)

end Sys2Proof.Machine
end

