-- ==== Sys2Proof/Machine/Flow.lean ====
section
/-! DEFINITION. Control transfer: SYS, RET, JP, CALL, JP V0 (41_flow.md R96 to R100). -/

namespace Sys2Proof.Machine

/-- R96, by SYS_POLICY (log 3). Under FAULT the exception is R177's MalformedOpcode, with the word in both fields. -/
def execSys (nnn : Index) (s : State) : Result :=
  match s.cfg.sysPolicy with
  | .nop => .next (s.advance 2)
  | .fault => .next (s.raise .malformedOpcode (encode (.sys nnn)) (encode (.sys nnn)))

/-- R97: `sp <- sp - 1; pc <- stack[sp] + 2`; StackUnderflow(0) when sp = 0 (R178, R183). -/
def execRet (s : State) : Result :=
  match s.pop with
  | none => .next (s.raise .stackUnderflow (encode .ret) 0)
  | some (w, t) => .next (t.setPc (w + 2))

/-- R98. -/
def execJp (nnn : Index) (s : State) : Result := .next (s.setPc (nnn.setWidth 16))

/-- R99: pushes pc itself, not its successor; StackOverflow(16) when sp = 16 (R179, R183). -/
def execCall (nnn : Index) (s : State) : Result :=
  match s.push s.pc with
  | none => .next (s.raise .stackOverflow (encode (.call nnn)) 16)
  | some t => .next (t.setPc (nnn.setWidth 16))

/-- R100: "no truncation to 12 bits". -/
def execJpV0 (nnn : Index) (s : State) : Result := .next (s.setPc (offsetTarget nnn (s.readV 0)))

end Sys2Proof.Machine
end

