-- ==== Sys2Proof/Machine/Immediate.lean ====
section
/-! DEFINITION. Immediate and random instructions (43_immediate.md R113 to R116). -/

namespace Sys2Proof.Machine

/-- R113. -/
def execLdImm (x : Reg) (kk : Byte) (s : State) : Result := .next ((s.writeV x kk).advance 2)

/-- R114: "wrapping modulo 256, no flag set". -/
def execAddImm (x : Reg) (kk : Byte) (s : State) : Result :=
  .next ((s.writeV x (addResult (s.readV x) kk)).advance 2)

/-- R115. -/
def execLdI (nnn : Index) (s : State) : Result := .next ((s.setI nnn).advance 2)

/-- R116: one draw from `rand`, masked by kk. -/
def execRnd (x : Reg) (kk : Byte) (s : State) : Result :=
  .next ((s.afterDraw.writeV x (s.randomByte &&& kk)).advance 2)

end Sys2Proof.Machine
end

