-- ==== Sys2Proof/Machine/Keys.lean ====
section
/-! DEFINITION. Key instructions: SKP, SKNP, LD Vx, K (46_keys.md R151 to R154). -/

namespace Sys2Proof.Machine

/-- `keys[k]` for the full 8-bit k; none when k has no entry (R151). -/
def State.keyPressed (s : State) (k : Byte) : Option Bool := s.keys[k.toNat]?

/-- KeyIndexViolation(k) (R151, R181, R183). -/
def State.raiseKeyIndex (s : State) (op : Word) (k : Byte) : State :=
  s.raise .keyIndexViolation op (k.setWidth 16)

/-- R152. -/
def execSkp (x : Reg) (s : State) : Result :=
  match s.keyPressed (s.readV x) with
  | none => .next (s.raiseKeyIndex (encode (.skp x)) (s.readV x))
  | some pressed => .next (s.skipIf pressed)

/-- R153. -/
def execSknp (x : Reg) (s : State) : Result :=
  match s.keyPressed (s.readV x) with
  | none => .next (s.raiseKeyIndex (encode (.sknp x)) (s.readV x))
  | some pressed => .next (s.skipIf (!pressed))

/-- R154: takes the host's answer; with none there yet the block holds inside ReadKey, nothing else changes and pc still
holds the address of the Fx0A (R40; log 6). It does not read `keys`. -/
def execLdVxK (x : Reg) (s : State) : Result :=
  match s.keyIn with
  | [] => .next s.await
  | k :: _ => .next ((s.answered.writeV x (k.setWidth 8)).advance 2)

end Sys2Proof.Machine
end

