-- ==== Sys2Proof/Machine/TimerIndex.lean ====
section
/-! DEFINITION. Timer and index-register instructions (47_timers_index.md R159 to R163). The tick of the same step comes
after them (R164; Machine/Cycle.lean). -/

namespace Sys2Proof.Machine

/-- R159. -/
def execLdVxDt (x : Reg) (s : State) : Result := .next ((s.writeV x s.dt).advance 2)

/-- R160. -/
def execLdDtVx (x : Reg) (s : State) : Result := .next ((s.setDt (s.readV x)).advance 2)

/-- R161. -/
def execLdStVx (x : Reg) (s : State) : Result := .next ((s.setSt (s.readV x)).advance 2)

/-- R162: the flag is written last (R120; log 14), I wraps modulo 4096 (log 16). -/
def execAddI (x : Reg) (s : State) : Result :=
  .next (((s.setI (indexAddResult s.I (s.readV x))).writeFlag (indexAddCarry s.I (s.readV x))).advance 2)

/-- R163: the whole 8-bit value, not masked. -/
def execLdF (x : Reg) (s : State) : Result := .next ((s.setI (glyphAddress (s.readV x))).advance 2)

end Sys2Proof.Machine
end

