-- ==== Sys2Proof/Machine/Transfer.lean ====
section
/-! DEFINITION. Memory transfer: Fx33, Fx55, Fx65 (48_memory_transfer.md R168 to R171). I is never modified (log 20). -/

namespace Sys2Proof.Machine

/-- R169: hundreds, tens, units at I, I + 1, I + 2. -/
def execLdB (x : Reg) (s : State) : Result :=
  s.withExtent (encode (.ldB x)) 3 fun s =>
    .next ((s.writeBlock s.I.toNat (decimalDigits (s.readV x))).advance 2)

/-- R170: Vk at I + k, for k in 0..x. -/
def execLdMemVx (x : Reg) (s : State) : Result :=
  s.withExtent (encode (.ldMemVx x)) (x.val + 1) fun s =>
    .next ((s.writeBlock s.I.toNat ((regsUpTo x).map s.readV)).advance 2)

/-- The registers of a list loaded from I + their number; every byte is read from the state before (R171). -/
def State.loadRegs (s : State) (regs : List Reg) : State :=
  regs.foldl (fun t k => t.writeV k (s.readByte (s.I.toNat + k.val))) s

/-- R171: Vk from I + k, for k in 0..x. -/
def execLdVxMem (x : Reg) (s : State) : Result :=
  s.withExtent (encode (.ldVxMem x)) (x.val + 1) fun s => .next ((s.loadRegs (regsUpTo x)).advance 2)

end Sys2Proof.Machine
end

