-- ==== Sys2Proof/Machine/Step.lean ====
section
/-! DEFINITION. The step (40_cycle.md R81): dirty <- 0, fetch, decode, execute, timer tick, host notification. -/

namespace Sys2Proof.Machine

/-- One step. In HALTED there is none (R88). -/
def step (s : State) : Host.Outcome State Fault Refusal :=
  match s.run with
  | .halted => .fault .halted
  | .running =>
    match s.beginStep.fetchDecode with
    | .error faulted => .next faulted
    | .ok i => finishStep (exec i s.beginStep)

/-- `s` with the instruction whose bits are `w` stored at pc, where `step` fetches (log 30). -/
def State.withFetchWord (s : State) (nbits w : Nat) : State :=
  match tableBytes nbits w with
  | some bytes => s.placeAtPc bytes
  | none => s

end Sys2Proof.Machine
end

