-- ==== Sys2Proof/Machine/HostMoves.lean ====
section
/-! DEFINITION. What the host may do between steps and at the suspension points (10_state.md R42, R43, R44;
70_reset_and_hazards.md R206 to R212). What it must not do has no move here (log 13). -/

namespace Sys2Proof.Machine

/-- `reset()` (R206): every field of R34 from any state, HALTED included (R193). What belongs to the environment (the
inputs not yet taken, the record of notifications) and the parameters stay. -/
def State.hostReset (s : State) : State :=
  { State.resetWith s.cfg with
    randIn := s.randIn, randDrawn := s.randDrawn, keyIn := s.keyIn, frames := s.frames }

/-- PROG_BASE (00_scope.md R6). -/
def progBase : Nat := 0x200

/-- MAX_PROG (00_scope.md R6). -/
def maxProg : Nat := 3584

/-- `load_program(bytes)` (R43): copies the image to 0x200 upward and changes nothing else; an image over 3584 bytes is
refused before any byte is written (R182), and no run exists (log 29). -/
def State.loadProgram (s : State) (image : List Byte) : Option State :=
  if image.length ≤ maxProg then some (s.writeBlock progBase image) else none

/-- The boot sequence (R208): reset, then load; "Load is legal only directly after `reset()`" (R43). -/
def State.boot (s : State) (image : List Byte) : Option State := s.hostReset.loadProgram image

/-- The host's moves. -/
inductive HostMove where
  /-- R41: write any entries of the key latch -/
  | setKeys (keys : Vector Bool 16)
  /-- R40: answer a ReadKey -/
  | answerKey (k : BitVec 4)
  /-- R38: drive the random input of a coming draw -/
  | supplyRandom (r : Byte)
  /-- R206 -/
  | reset
  /-- R208 -/
  | boot (image : List Byte)
  deriving DecidableEq, Repr

/-- The state after a move; none where the move does not exist: an image too long (R182), or a reset inside the ReadKey
wait, where the host may write `keys` and answer only (R42). -/
def HostMove.apply (m : HostMove) (s : State) : Option State :=
  match m with
  | .setKeys keys => some { s with keys := keys }
  | .answerKey k => some { s with keyIn := s.keyIn ++ [k] }
  | .supplyRandom r => some { s with randIn := s.randIn ++ [r] }
  | .reset => if s.waiting then none else some s.hostReset
  | .boot image => if s.waiting then none else s.boot image

end Sys2Proof.Machine
end

