-- ==== Sys2Proof/Safety.lean ====
section
/-! DEFINITION. The terms claims are made in: the invariant of every reachable state (10_state.md R45), reachability, a
safe run, and the spec's tables of what each instruction reads, writes, raises and does to pc (R15, R19, R184). -/

namespace Sys2Proof.Machine

/-! ### The invariant and the runs -/

/-- R45, in the terms of this model: what the types of State do not already say. -/
structure State.Inv (s : State) : Prop where
  /-- memory is in canonical form -/
  memWf : Memory.wf s.cfg.font s.mem = true
  /-- "pc is in 0..0x10FE" -/
  pcLe : s.pc.toNat ≤ 0x10FE
  /-- "every stack slot below sp holds an address ... in 0..0xFFE" -/
  stackLe : ∀ k : Fin 16, k.val < s.sp.val → s.stack[k].toNat ≤ 0xFFE
  /-- "if run = HALTED then err.kind is not NONE, and if run = RUNNING then err.kind = NONE" -/
  errMatchesRun : s.err.kind = .none ↔ s.run = .running
  /-- dirty "is not kept between steps" (R32) -/
  dirtyForgotten : s.dirty = false
  /-- while the block waits in ReadKey it is running and pc still addresses the Fx0A (R154) -/
  waitsAtKeyRead : s.waiting = true → s.run = .running ∧ ∃ x, s.fetchDecode = .ok (.ldVxK x)

/-- The states some run reaches: from reset, with any parameters, by steps and host moves (R45). -/
inductive Reachable : State → Prop where
  | reset (cfg : Config) : Reachable (State.resetWith cfg)
  | step {s t : State} : Reachable s → Machine.step s = .next t → Reachable t
  | host {s t : State} (m : HostMove) : Reachable s → m.apply s = some t → Reachable t

/-- A run of steps alone from `s` never faults: "A run that ends in HALTED is a failed run" (R193). -/
def State.SafeRun (s : State) : Prop :=
  ∀ k, ∃ t, Sys2Proof.core.run k s = .next t ∧ t.run = .running

/-! ### The spec's tables -/

/-- R15: does the instruction write V[r]? VF counts when the instruction writes it as a flag (R16). -/
def Rules.writesV : Instr → Reg → Bool
  | .seImm _ _, _ | .sneImm _ _, _ | .seReg _ _ _, _ | .sneReg _ _ _, _ => false
  | .ldImm x _, r | .addImm x _, r | .rnd x _, r => r == x
  | .ldReg x _, r | .orReg x _, r | .andReg x _, r | .xorReg x _, r => r == x
  | .addReg x _, r | .subReg x _, r | .subnReg x _, r | .shr x _, r | .shl x _, r => r == x || r == Reg.vf
  | .jpV0 _, _ => false
  | .drw _ _ _, r => r == Reg.vf
  | .skp _, _ | .sknp _, _ => false
  | .ldVxDt x, r | .ldVxK x, r => r == x
  | .ldDtVx _, _ | .ldStVx _, _ | .ldF _, _ | .ldB _, _ => false
  | .addI _, r => r == Reg.vf
  | .ldMemVx _, _ => false
  | .ldVxMem x, r => decide (r.val ≤ x.val)
  | .cls, _ | .ret, _ | .sys _, _ | .jp _, _ | .call _, _ | .ldI _, _ => false

/-- R184 with R177 to R181 and R183: the fault the instruction raises in this state, with err.info; none if it
completes (or waits). -/
def Rules.faultIn (s : State) : Instr → Option (ErrKind × Word)
  | .sys nnn => if s.cfg.sysPolicy = .fault then some (.malformedOpcode, nnn.setWidth 16) else none
  | .ret => if s.sp.val = 0 then some (.stackUnderflow, 0) else none
  | .call _ => if s.sp.val = 16 then some (.stackOverflow, 16) else none
  | .drw _ _ n => if n.val > 0 ∧ s.I.toNat + n.val - 1 > 0xFFF then some (.addressViolation, 0x1000) else none
  | .ldB _ => if s.I.toNat + 2 > 0xFFF then some (.addressViolation, 0x1000) else none
  | .ldMemVx x | .ldVxMem x => if s.I.toNat + x.val > 0xFFF then some (.addressViolation, 0x1000) else none
  | .skp x | .sknp x => if (s.readV x).toNat > 15 then some (.keyIndexViolation, (s.readV x).setWidth 16) else none
  | .cls | .jp _ | .seImm _ _ | .sneImm _ _ | .seReg _ _ _ | .ldImm _ _ | .addImm _ _ | .ldReg _ _ | .orReg _ _
  | .andReg _ _ | .xorReg _ _ | .addReg _ _ | .subReg _ _ | .shr _ _ | .subnReg _ _ | .shl _ _ | .sneReg _ _ _
  | .ldI _ | .jpV0 _ | .rnd _ _ | .ldVxDt _ | .ldVxK _ | .ldDtVx _ | .ldStVx _ | .addI _ | .ldF _ => none

/-- Does the instruction hold inside ReadKey in this state (R154)? -/
def Rules.waitsIn (s : State) : Instr → Bool
  | .ldVxK _ => s.keyIn.isEmpty
  | _ => false

/-- The condition of a skip instruction in this state; none for other instructions and for a key index above 15. -/
def Rules.skipCondition (s : State) : Instr → Option Bool
  | .seImm x kk => some (s.readV x == kk)
  | .sneImm x kk => some (s.readV x != kk)
  | .seReg x y _ => some (s.readV x == s.readV y)
  | .sneReg x y _ => some (s.readV x != s.readV y)
  | .skp x => s.keys[(s.readV x).toNat]?
  | .sknp x => (s.keys[(s.readV x).toNat]?).map (!·)
  | _ => none

/-- R19, the table of pc after an instruction that completes. -/
def Rules.pcAfter (s : State) (i : Instr) : Word :=
  match i with
  | .jp nnn | .call nnn => nnn.setWidth 16
  | .jpV0 nnn => BitVec.ofNat 16 (nnn.toNat + (s.readV 0).toNat)
  | .ret => (s.stack[s.sp.val - 1]?).getD 0 + 2
  | i => if Rules.skipCondition s i = some true then s.pc + 4 else s.pc + 2

/-- Is the sprite bit of DRW x, y, n that lands on row `row`, column `col` a 1 (R137 to R139)? Row r of the sprite is the
byte at I + r, and bit 7 - c of it lands on column Vx + c; nothing wraps. -/
def State.spriteBit (s : State) (x y : Reg) (n : Nat) (row col : Nat) : Bool :=
  decide ((s.readV y).toNat ≤ row ∧ row < (s.readV y).toNat + n ∧ (s.readV x).toNat ≤ col ∧ col < (s.readV x).toNat + 8)
    && (s.readByte (s.I.toNat + (row - (s.readV y).toNat))).getLsbD (7 - (col - (s.readV x).toNat))

/-- Is there a pixel that the draw turns off (R140)? -/
def State.collides (s : State) (x y : Reg) (n : Nat) : Prop :=
  ∃ row : Fin 32, ∃ col : Fin 64, s.spriteBit x y n row col = true ∧ s.fb[row][col] = true

end Sys2Proof.Machine
end

