-- ==== Sys2Proof/Certificates/Slice0/Obligations.lean ====
section
/-! DEFINITION. The statements for the provers. Each docstring names the rules it formalises. Where a rule carries a
[decision: ...] or [derived: ...] mark of the spec's own, the statement's basis is 'derived' and the docstring names the
decision D<n> of spec/92_eei_decisions.md and the log entry. "s0" is the state at the start of Execute: dirty and the wait
cleared (40_cycle.md R81). -/

open Sys2Proof Sys2Proof.Machine

/-! ### Encoding -/

/-- R65, R66, R73: decoding the bytes of a well-formed instruction gives it back, with every operand, whatever follows. -/
def Obligations.DecodeOfEncodeIsTheInstruction : Prop :=
  ∀ (i : Instr) (rest : List Byte), i.wellFormed = true → decode (encodeBytes i ++ rest) = .ok (i, rest)

/-- R65, R77: a word that decodes is the word of the instruction it decodes to: no bit of it is dropped. -/
def Obligations.EncodeOfDecodeIsTheWord : Prop :=
  ∀ (op : Word) (i : Instr), decodeWord op = .ok i → encode i = op ∧ i.wellFormed = true

/-- R74, R77 (the words R74 counts are these; the counts are not restated): the words that are no instruction. -/
def Obligations.IllegalWordsAreThoseOfFamilies8EF : Prop :=
  ∀ op : Word,
    (decodeWord op = .error (.malformedOpcode op) ↔
      (op.toNat / 4096 = 0x8 ∧ op.toNat % 16 ∈ [0x8, 0x9, 0xA, 0xB, 0xC, 0xD, 0xF]) ∨
      (op.toNat / 4096 = 0xE ∧ op.toNat % 256 ∉ [0x9E, 0xA1]) ∨
      (op.toNat / 4096 = 0xF ∧
        op.toNat % 256 ∉ [0x07, 0x0A, 0x15, 0x18, 0x1E, 0x29, 0x33, 0x55, 0x65])) ∧
    (decodeWord op = .error (.malformedOpcode op) ∨ ∃ i, decodeWord op = .ok i)

/-- R73 with D18 (log 23): a word that decodes matches the row of its instruction and no other, but for 00E0 and 00EE, which
"take precedence over row 0nnn". -/
def Obligations.DecodedWordMatchesItsTableRowOnly : Prop :=
  ∀ (op : Word) (i : Instr), decodeWord op = .ok i →
    op &&& tableMask i = tableMatch i ∧
    ∀ j : Instr, op &&& tableMask j = tableMatch j →
      tableMatch j = tableMatch i ∨ (tableMatch j = 0x0000 ∧ (op = 0x00E0 ∨ op = 0x00EE))

/-- Words of 95_test_vectors.md V-DEC-1 to V-DEC-28, at least one of each of the sixteen families, decode as that table says.
The nibbles of family 8 (8126, 812E) are those the spec reads from the order of the source's list (R70, N3; log 31), and that
5127 and 912F decode is decision D18 (log 23). -/
def Obligations.WrittenOutWordsDecode : Prop :=
  decodeWord 0x00E0 = .ok .cls ∧ decodeWord 0x00EE = .ok .ret ∧ decodeWord 0x01E0 = .ok (.sys 0x1E0) ∧
  decodeWord 0x1ABC = .ok (.jp 0xABC) ∧ decodeWord 0x2ABC = .ok (.call 0xABC) ∧
  decodeWord 0x3A42 = .ok (.seImm 0xA 0x42) ∧ decodeWord 0x4A42 = .ok (.sneImm 0xA 0x42) ∧
  decodeWord 0x5127 = .ok (.seReg 1 2 7) ∧ decodeWord 0x6AFF = .ok (.ldImm 0xA 0xFF) ∧
  decodeWord 0x7A01 = .ok (.addImm 0xA 0x01) ∧ decodeWord 0x912F = .ok (.sneReg 1 2 0xF) ∧
  decodeWord 0xAFFF = .ok (.ldI 0xFFF) ∧ decodeWord 0xB300 = .ok (.jpV0 0x300) ∧
  decodeWord 0x8126 = .ok (.shr 1 2) ∧ decodeWord 0x812E = .ok (.shl 1 2) ∧
  decodeWord 0xC30F = .ok (.rnd 3 0x0F) ∧ decodeWord 0xD125 = .ok (.drw 1 2 5) ∧ decodeWord 0xE1A1 = .ok (.sknp 1) ∧
  decodeWord 0xF21E = .ok (.addI 2) ∧ decodeWord 0xF255 = .ok (.ldMemVx 2) ∧
  decodeWord 0x8128 = .error (.malformedOpcode 0x8128) ∧ decodeWord 0xE19F = .error (.malformedOpcode 0xE19F) ∧
  decodeWord 0xF075 = .error (.malformedOpcode 0xF075)

/-! ### The step -/

/-- R81 to R89; the wait is the model's form of R154 (log 6). When the bytes at pc decode to i, the step is exec i at s0,
then one tick of both timers and one notification; after a fault, or while the block holds inside ReadKey, neither. -/
def Obligations.StepRunsTheDecodedInstruction : Prop :=
  ∀ (s : State) (i : Instr), s.run = .running → s.pc.toNat ≤ 0xFFE →
    decodeWord (s.readByte s.pc.toNat ++ s.readByte (s.pc.toNat + 1)) = .ok i →
    ∃ t, exec i { s with dirty := false, waiting := false } = .next t ∧
      (t.run = .running ∧ t.waiting = false →
        step s = .next { t with
          dt := if t.dt.toNat > 0 then t.dt - 1 else t.dt
          st := if t.st.toNat > 0 then t.st - 1 else t.st
          frames := t.dirty :: t.frames
          dirty := false }) ∧
      (t.run = .halted ∨ t.waiting = true → step s = .next t)

/-- R47, R82: the opcode is mem[pc] || mem[pc + 1], high byte first; pc = 0xFFF and pc > 0xFFF raise AddressViolation with
the lowest out-of-range address. The last clause, that the failed fetch writes that kind and that address to err, rests on
the record of R183 and R191 (decisions D5, D20; log 25, 27). -/
def Obligations.FetchIsBigEndianAndRangeChecked : Prop :=
  ∀ s : State,
    (s.pc.toNat ≤ 0xFFE → ∃ op, s.fetch = .ok op ∧
      op.toNat = (s.readByte s.pc.toNat).toNat * 256 + (s.readByte (s.pc.toNat + 1)).toNat) ∧
    (s.pc.toNat = 0xFFF → s.fetch = .error 0x1000) ∧
    (s.pc.toNat > 0xFFF → s.fetch = .error s.pc) ∧
    (∀ bad, s.fetch = .error bad →
      ∃ t, s.fetchDecode = .error t ∧ t.err.kind = .addressViolation ∧ t.err.info = bad)

/-- R82, R180, R190, R191 with D5 and D30 (log 25, 27): a step from an address that cannot be fetched halts, with
err.opcode 0. -/
def Obligations.UnfetchablePcHalts : Prop :=
  ∀ s : State, s.run = .running → s.pc.toNat > 0xFFE →
    step s = .next { s with
      run := .halted
      err := { kind := .addressViolation, pc := s.pc, opcode := 0, info := if s.pc.toNat > 0xFFF then s.pc else 0x1000 }
      dirty := false
      waiting := false }

/-- R131, R155, R177, R190, R191 with D20 and D21 (log 10, 27): the words of families 8, E and F that are no instruction
raise MalformedOpcode at decode and change nothing; an illegal family E word never raises KeyIndexViolation, whatever Vx. -/
def Obligations.IllegalWordHalts : Prop :=
  ∀ (s : State) (op : Word), s.run = .running → s.pc.toNat ≤ 0xFFE →
    op = s.readByte s.pc.toNat ++ s.readByte (s.pc.toNat + 1) →
    ((op.toNat / 4096 = 0x8 ∧ op.toNat % 16 ∈ [0x8, 0x9, 0xA, 0xB, 0xC, 0xD, 0xF]) ∨
      (op.toNat / 4096 = 0xE ∧ op.toNat % 256 ∉ [0x9E, 0xA1]) ∨
      (op.toNat / 4096 = 0xF ∧
        op.toNat % 256 ∉ [0x07, 0x0A, 0x15, 0x18, 0x1E, 0x29, 0x33, 0x55, 0x65])) →
    step s = .next { s with
      run := .halted
      err := { kind := .malformedOpcode, pc := s.pc, opcode := op, info := op }
      dirty := false
      waiting := false }

/-- R88 with D21 (log 10): in HALTED there is no step. -/
def Obligations.HaltedMachineHasNoStep : Prop :=
  ∀ s : State, s.run = .halted → step s = .fault .halted

/-- R188, R190, R191 with D5, D20, D21, D30 (log 25, 27): a step that halts has changed nothing but run and err (no tick, no
notification), err.pc is the unchanged pc, and err.opcode is the word fetched there, 0 where none was. -/
def Obligations.FaultChangesOnlyRunAndErr : Prop :=
  ∀ s t : State, step s = .next t → t.run = .halted →
    t = { s with run := .halted, err := t.err, dirty := false, waiting := false } ∧
    t.err.kind ≠ .none ∧ t.err.pc = s.pc ∧
    (∀ op, s.fetch = .ok op → t.err.opcode = op) ∧
    (∀ bad, s.fetch = .error bad → t.err.kind = .addressViolation ∧ t.err.opcode = 0 ∧ t.err.info = bad)

/-- R184 (derived) with R177 to R181, R183: every instruction raises the fault of its row exactly when the row says, with
that err.info, and completes or waits otherwise. -/
def Obligations.InstructionsRaiseExactlyTheirFaults : Prop :=
  ∀ (i : Instr) (s : State),
    (∀ k info, Rules.faultIn s i = some (k, info) →
      exec i s = .next { s with run := .halted, err := { kind := k, pc := s.pc, opcode := encode i, info := info } }) ∧
    (Rules.faultIn s i = none → ∃ t, exec i s = .next t ∧ t.run = s.run ∧ t.err = s.err)

/-- R85: after an instruction that completes each timer above 0 falls by one, a timer at 0 stays; t is the state it left.
So Fx15 with Vx > 0 ends its step with DT = Vx - 1, and Fx07 reads DT before its own step's tick. -/
def Obligations.EveryCompletedInstructionTicksOnce : Prop :=
  ∀ s u : State, step s = .next u → u.run = .running → u.waiting = false →
    ∃ i t, s.fetchDecode = .ok i ∧ exec i { s with dirty := false, waiting := false } = .next t ∧
      (t.dt.toNat > 0 → u.dt.toNat = t.dt.toNat - 1) ∧ (t.dt.toNat = 0 → u.dt = 0) ∧
      (t.st.toNat > 0 → u.st.toNat = t.st.toNat - 1) ∧ (t.st.toNat = 0 → u.st = 0) ∧
      (∀ x, i = .ldDtVx x → (s.readV x).toNat > 0 → u.dt.toNat = (s.readV x).toNat - 1) ∧
      (∀ x, i = .ldVxDt x → u.readV x = s.dt)

/-- R39, R86, R87: a step that completes hands the host one flag, 1 exactly when the instruction executed was Dxyn, for every
Dxyn; 00E0 hands 0. That the flag is handed over as the newest entry of `frames`, and that dirty stands in State and is
cleared afterwards, are the model's choices (log 8, 9), and so is the form of the wait that is left out (log 6). -/
def Obligations.HostIsToldDirtyExactlyForDraws : Prop :=
  ∀ s u : State, step s = .next u → u.run = .running → u.waiting = false →
    ∃ i d, s.fetchDecode = .ok i ∧ u.frames = d :: s.frames ∧ u.dirty = false ∧
      (d = true ↔ ∃ x y n, i = .drw x y n)

/-- R164 (derived) with R85: what the timers hold at the end of a step that completes, and that Fx07 reads DT before its
own step's tick. -/
def Obligations.TimersAtTheEndOfAStep : Prop :=
  ∀ (s u : State) (i : Instr), s.fetchDecode = .ok i → step s = .next u → u.run = .running → u.waiting = false →
    (∀ x, i = .ldDtVx x → u.dt.toNat = (s.readV x).toNat - 1) ∧
    ((∀ x, i ≠ .ldDtVx x) → u.dt.toNat = s.dt.toNat - 1) ∧
    (∀ x, i = .ldStVx x → u.st.toNat = (s.readV x).toNat - 1) ∧
    ((∀ x, i ≠ .ldStVx x) → u.st.toNat = s.st.toNat - 1) ∧
    (∀ x, i = .ldVxDt x → u.readV x = s.dt)

/-- R28, R42 (log 1, 7): no step writes the key latch or the parameters. -/
def Obligations.StepsNeverWriteKeysOrParameters : Prop :=
  ∀ s t : State, step s = .next t → t.keys = s.keys ∧ t.cfg = s.cfg

/-- R25, "nothing reads ST": two machines that differ in ST alone take the same step but for ST. -/
def Obligations.SoundTimerInfluencesNothing : Prop :=
  ∀ (s t : State) (v : Byte), step s = .next t → ∃ w, step { s with st := v } = .next { t with st := w }

/-! ### Frames over all instructions -/

/-- R19: the table of pc after each instruction; a fault leaves pc unchanged. (Fx0A with no answer: see
KeyReadHoldsUntilAnswered.) That exec answers a next state always, for a fault and for a waiting Fx0A too, is the model's
choice (log 6, 10); where an instruction faults rests on D3 to D6 and D14 (log 3, 18, 24, 25, 26), and that the low nibble of
5xyN and 9xyN is ignored on D18 (log 23). -/
def Obligations.PcAfterEachInstruction : Prop :=
  ∀ (i : Instr) (s : State), ∃ t, exec i s = .next t ∧
    (Rules.faultIn s i = none → Rules.waitsIn s i = false → t.pc = Rules.pcAfter s i) ∧
    (Rules.faultIn s i ≠ none → t.pc = s.pc)

/-- R15 (derived), R16: an instruction leaves every register alone but those of its row, VF among them where it is written
as a flag. -/
def Obligations.InstructionsWriteOnlyTheirRegisters : Prop :=
  ∀ (i : Instr) (s : State), ∃ t, exec i s = .next t ∧ ∀ r, Rules.writesV i r = false → t.readV r = s.readV r

/-- R17, R21, R25, R26, R28, R32, R38, R40 with D15 (log 20): which instruction writes each piece of state that is neither a
register, pc, memory, run nor err. -/
def Obligations.SpecialStateHasOnlyItsWriters : Prop :=
  ∀ (i : Instr) (s : State), ∃ t, exec i s = .next t ∧
    ((∀ n, i ≠ .ldI n) → (∀ x, i ≠ .addI x) → (∀ x, i ≠ .ldF x) → t.I = s.I) ∧
    ((∀ n, i ≠ .call n) → t.stack = s.stack) ∧
    ((∀ n, i ≠ .call n) → i ≠ .ret → t.sp = s.sp) ∧
    ((∀ x, i ≠ .ldDtVx x) → t.dt = s.dt) ∧
    ((∀ x, i ≠ .ldStVx x) → t.st = s.st) ∧
    (i ≠ .cls → (∀ x y n, i ≠ .drw x y n) → t.fb = s.fb) ∧
    ((∀ x y n, i ≠ .drw x y n) → t.dirty = s.dirty) ∧
    ((∀ x kk, i ≠ .rnd x kk) → t.randIn = s.randIn ∧ t.randDrawn = s.randDrawn) ∧
    ((∀ x, i ≠ .ldVxK x) → t.keyIn = s.keyIn ∧ t.waiting = s.waiting) ∧
    t.keys = s.keys ∧ t.frames = s.frames ∧ t.cfg = s.cfg

/-- R46, R50: Fx33 stores to I..I+2 and Fx55 to I..I+x; every other byte, and every byte under every other instruction,
reads as before. -/
def Obligations.MemoryIsWrittenOnlyWhereStored : Prop :=
  ∀ (i : Instr) (s : State), ∃ t, exec i s = .next t ∧
    (∀ x, i = .ldB x → ∀ a, a < s.I.toNat ∨ s.I.toNat + 2 < a → t.readByte a = s.readByte a) ∧
    (∀ x, i = .ldMemVx x → ∀ a, a < s.I.toNat ∨ s.I.toNat + x.val < a → t.readByte a = s.readByte a) ∧
    ((∀ x, i ≠ .ldB x) → (∀ x, i ≠ .ldMemVx x) → ∀ a, t.readByte a = s.readByte a)

/-! ### Control transfer -/

/-- R96 with D3 (log 3), for both values of SYS_POLICY: NOP only advances pc, FAULT raises MalformedOpcode. -/
def Obligations.SysFollowsItsPolicy : Prop :=
  ∀ (nnn : Index) (s : State),
    (s.cfg.sysPolicy = .nop → exec (.sys nnn) s = .next { s with pc := s.pc + 2 }) ∧
    (s.cfg.sysPolicy = .fault → ∃ op : Word, op.toNat = nnn.toNat ∧
      exec (.sys nnn) s =
        .next { s with run := .halted, err := { kind := .malformedOpcode, pc := s.pc, opcode := op, info := op } })

/-- R98: pc <- zext_16(nnn), nothing else; nnn = 0xFFF is accepted and faults at the next fetch. -/
def Obligations.JumpSetsPc : Prop :=
  ∀ (nnn : Index) (s : State), ∃ t, exec (.jp nnn) s = .next t ∧
    t = { s with pc := t.pc } ∧ t.pc.toNat = nnn.toNat ∧ (nnn = 0xFFF → t.fetch = .error 0x1000)

/-- R100: pc <- nnn + V0 (register 0, whatever bits 11:8 of the word), not cut to 12 bits, nothing else; a sum above 0xFFE
makes the next fetch fail. -/
def Obligations.OffsetJumpAddsV0 : Prop :=
  ∀ (nnn : Index) (s : State), ∃ t, exec (.jpV0 nnn) s = .next t ∧
    t = { s with pc := t.pc } ∧ t.pc.toNat = nnn.toNat + (s.readV 0).toNat ∧
    (nnn.toNat + (s.readV 0).toNat > 0xFFE →
      t.fetch = .error (BitVec.ofNat 16 (max (nnn.toNat + (s.readV 0).toNat) 0x1000)))

/-- R99, R179 with D4 (log 24): CALL pushes its own address and jumps; with a full stack it raises StackOverflow(16). -/
def Obligations.CallPushesItsOwnAddress : Prop :=
  ∀ (nnn : Index) (s : State),
    (∀ h : s.sp.val < 16, ∃ t, exec (.call nnn) s = .next t ∧
      t = { s with pc := t.pc, stack := t.stack, sp := t.sp } ∧ t.pc.toNat = nnn.toNat ∧ t.sp.val = s.sp.val + 1 ∧
      t.stack[s.sp.val] = s.pc ∧ ∀ k : Fin 16, k.val ≠ s.sp.val → t.stack[k] = s.stack[k]) ∧
    (s.sp.val = 16 → exec (.call nnn) s =
      .next { s with
        run := .halted
        err := { kind := .stackOverflow, pc := s.pc, opcode := encode (.call nnn), info := 16 } })

/-- R97, R178 with D4 (log 24): RET pops the slot and adds 2, the slot keeps its value; with an empty stack it raises
StackUnderflow(0). -/
def Obligations.ReturnPopsAndAddsTwo : Prop :=
  ∀ s : State,
    (∀ h : 0 < s.sp.val, ∃ t, exec .ret s = .next t ∧
      t = { s with pc := s.stack[s.sp.val - 1] + 2, sp := t.sp } ∧ t.sp.val = s.sp.val - 1) ∧
    (s.sp.val = 0 → exec .ret s =
      .next { s with run := .halted, err := { kind := .stackUnderflow, pc := s.pc, opcode := 0x00EE, info := 0 } })

/-- R101 (derived): the RET that pops the slot a completed CALL at address a pushed sets pc to a + 2 and sp to what it was
before the CALL, whatever ran between. -/
def Obligations.ReturnUndoesCall : Prop :=
  ∀ (nnn : Index) (s t m : State) (h : s.sp.val < 16), exec (.call nnn) s = .next t →
    m.sp = t.sp → m.stack[s.sp.val] = t.stack[s.sp.val] →
    ∃ u, exec .ret m = .next u ∧ u.pc = s.pc + 2 ∧ u.sp = s.sp

/-! ### Skips -/

/-- R106, R107: pc + 4 when the condition holds, else pc + 2; nothing else. -/
def Obligations.ImmediateSkips : Prop :=
  ∀ (x : Reg) (kk : Byte) (s : State),
    (s.readV x = kk → exec (.seImm x kk) s = .next { s with pc := s.pc + 4 } ∧
      exec (.sneImm x kk) s = .next { s with pc := s.pc + 2 }) ∧
    (s.readV x ≠ kk → exec (.seImm x kk) s = .next { s with pc := s.pc + 2 } ∧
      exec (.sneImm x kk) s = .next { s with pc := s.pc + 4 })

/-- R108, R109, R110 with D18 (log 23), for every value of the nibble that is not decoded (R76): the same on two registers. -/
def Obligations.RegisterSkips : Prop :=
  ∀ (x y : Reg) (i j : BitVec 4) (s : State),
    (s.readV x = s.readV y → exec (.seReg x y i) s = .next { s with pc := s.pc + 4 } ∧
      exec (.sneReg x y j) s = .next { s with pc := s.pc + 2 }) ∧
    (s.readV x ≠ s.readV y → exec (.seReg x y i) s = .next { s with pc := s.pc + 2 } ∧
      exec (.sneReg x y j) s = .next { s with pc := s.pc + 4 })

/-! ### Immediates and random -/

/-- R113, R114, R115: LD loads kk, ADD adds kk modulo 256 with no flag, LD I loads nnn; pc + 2, nothing else. With x = F the
destination is VF. -/
def Obligations.ImmediateLoadsAndAdd : Prop :=
  ∀ (x : Reg) (kk : Byte) (nnn : Index) (s : State),
    (∃ t, exec (.ldImm x kk) s = .next t ∧ t = { s with V := t.V, pc := s.pc + 2 } ∧ t.readV x = kk ∧
      ∀ r, r ≠ x → t.readV r = s.readV r) ∧
    (∃ t, exec (.addImm x kk) s = .next t ∧ t = { s with V := t.V, pc := s.pc + 2 } ∧
      (t.readV x).toNat = ((s.readV x).toNat + kk.toNat) % 256 ∧ ∀ r, r ≠ x → t.readV r = s.readV r) ∧
    exec (.ldI nnn) s = .next { s with I := nnn, pc := s.pc + 2 }

/-- R116, R38 with D19 (log 5): Vx <- r and kk for the byte r drawn; every r the host supplies next is the one drawn, and
where it supplied none the statement says of r only that it is some byte. The old Vx is not read, no flag is written. -/
def Obligations.RandomByteIsDrawnAndMasked : Prop :=
  ∀ (x : Reg) (kk : Byte) (s : State),
    ∃ r t, exec (.rnd x kk) s = .next t ∧
      t = { s with V := t.V, pc := s.pc + 2, randIn := s.randIn.tail, randDrawn := s.randDrawn + 1 } ∧
      t.readV x = r &&& kk ∧ (∀ q, q ≠ x → t.readV q = s.readV q) ∧
      (∀ r', s.randIn.head? = some r' → r = r')

/-! ### Family 8 -/

/-- R121 to R124 with D9 (log 15): assign, OR, AND, XOR; every other register, VF among them, is unchanged. -/
def Obligations.AssignAndLogic : Prop :=
  ∀ (x y : Reg) (s : State) (i : Instr) (result : Byte),
    ((i = .ldReg x y ∧ result = s.readV y) ∨ (i = .orReg x y ∧ result = s.readV x ||| s.readV y) ∨
      (i = .andReg x y ∧ result = s.readV x &&& s.readV y) ∨
      (i = .xorReg x y ∧ result = s.readV x ^^^ s.readV y)) →
    ∃ t, exec i s = .next t ∧ t = { s with V := t.V, pc := s.pc + 2 } ∧ t.readV x = result ∧
      ∀ r, r ≠ x → t.readV r = s.readV r

/-- R120, R125, R126, R128 with D8 (log 14): ADD, SUB and SUBN on unsigned bytes, the carry or not-borrow in VF, written
last: with x = F the flag is what VF holds and the result is lost. a and b are read before anything is written. -/
def Obligations.AddAndSubtractWithFlag : Prop :=
  ∀ (x y : Reg) (s : State) (i : Instr) (result flag : Nat),
    (let a := (s.readV x).toNat
     let b := (s.readV y).toNat
     (i = .addReg x y ∧ result = (a + b) % 256 ∧ flag = if a + b > 255 then 1 else 0) ∨
     (i = .subReg x y ∧ result = (if a ≥ b then a - b else a + 256 - b) ∧ flag = if a ≥ b then 1 else 0) ∨
     (i = .subnReg x y ∧ result = (if b ≥ a then b - a else b + 256 - a) ∧ flag = if b ≥ a then 1 else 0)) →
    ∃ t, exec i s = .next t ∧ t = { s with V := t.V, pc := s.pc + 2 } ∧
      (x ≠ 15 → (t.readV x).toNat = result) ∧ (t.readV 15).toNat = flag ∧
      ∀ r, r ≠ x → r ≠ 15 → t.readV r = s.readV r

/-- R120, R127, R129 with D7 and D8 (log 4, 14), for both values of SHIFT_SOURCE: logical shifts by one, the bit shifted out
in VF, written last. -/
def Obligations.ShiftsWithFlag : Prop :=
  ∀ (x y : Reg) (s : State) (v : Nat),
    ((s.cfg.shiftSource = .vx ∧ v = (s.readV x).toNat) ∨ (s.cfg.shiftSource = .vy ∧ v = (s.readV y).toNat)) →
    (∃ t, exec (.shr x y) s = .next t ∧ t = { s with V := t.V, pc := s.pc + 2 } ∧
      (x ≠ 15 → (t.readV x).toNat = v / 2) ∧ (t.readV 15).toNat = v % 2 ∧
      ∀ r, r ≠ x → r ≠ 15 → t.readV r = s.readV r) ∧
    (∃ t, exec (.shl x y) s = .next t ∧ t = { s with V := t.V, pc := s.pc + 2 } ∧
      (x ≠ 15 → (t.readV x).toNat = 2 * v % 256) ∧ (t.readV 15).toNat = v / 128 ∧
      ∀ r, r ≠ x → r ≠ 15 → t.readV r = s.readV r)

/-! ### Display -/

/-- R136: every pixel 0, pc + 2, nothing else: VF unchanged, dirty as it was. -/
def Obligations.ClearScreen : Prop :=
  ∀ s : State, ∃ t, exec .cls s = .next t ∧ t = { s with fb := t.fb, pc := s.pc + 2 } ∧
    ∀ (row : Fin 32) (col : Fin 64), t.fb[row][col] = false

/-- R137 to R140 with D8, D11 to D14 (log 14, 17, 18, 19): when the n sprite bytes are in range, each pixel is XORed with
the sprite bit that lands on it, VF is 1 exactly when some pixel that was on is turned off, dirty is set, I and memory are
unchanged. With n = 0, or wholly clipped, VF is 0. -/
def Obligations.DrawXorsTheSprite : Prop :=
  ∀ (x y : Reg) (n : Fin 16) (s : State), (n.val = 0 ∨ s.I.toNat + n.val - 1 ≤ 0xFFF) →
    ∃ t, exec (.drw x y n) s = .next t ∧
      t = { s with V := t.V, fb := t.fb, dirty := true, pc := s.pc + 2 } ∧
      (∀ (row : Fin 32) (col : Fin 64),
        t.fb[row][col] = (s.fb[row][col] ^^ s.spriteBit x y n.val row.val col.val)) ∧
      (s.collides x y n.val → t.readV 15 = 1) ∧ (¬ s.collides x y n.val → t.readV 15 = 0) ∧
      ∀ r, r ≠ 15 → t.readV r = s.readV r

/-- R141 (derived): the same DRW executed again (same coordinates, same sprite bytes, the framebuffer as the first left it)
restores the framebuffer, and VF is 1 exactly when the first turned on at least one pixel. -/
def Obligations.DrawTwiceRestores : Prop :=
  ∀ (x y : Reg) (n : Fin 16) (s t m : State), (n.val = 0 ∨ s.I.toNat + n.val - 1 ≤ 0xFFF) →
    exec (.drw x y n) s = .next t → m.fb = t.fb → m.I = s.I → m.readV x = s.readV x → m.readV y = s.readV y →
    (∀ k, k < n.val → m.readByte (s.I.toNat + k) = s.readByte (s.I.toNat + k)) →
    ∃ u, exec (.drw x y n) m = .next u ∧ u.fb = s.fb ∧
      (u.readV 15 = 1 ↔ ∃ (row : Fin 32) (col : Fin 64), s.fb[row][col] = false ∧ t.fb[row][col] = true) ∧
      (u.readV 15 ≠ 1 → u.readV 15 = 0)

/-! ### Keys -/

/-- R151 to R153, R181 with D6 (log 26): SKP and SKNP on the full value of Vx; above 15 it is no index and raises
KeyIndexViolation(Vx). -/
def Obligations.KeySkips : Prop :=
  ∀ (x : Reg) (s : State),
    (∀ h : (s.readV x).toNat < 16,
      exec (.skp x) s = .next { s with pc := s.pc + if s.keys[(s.readV x).toNat] then 4 else 2 } ∧
      exec (.sknp x) s = .next { s with pc := s.pc + if s.keys[(s.readV x).toNat] then 2 else 4 }) ∧
    ((s.readV x).toNat > 15 → ∃ info : Word, info.toNat = (s.readV x).toNat ∧
      exec (.skp x) s = .next { s with
        run := .halted
        err := { kind := .keyIndexViolation, pc := s.pc, opcode := encode (.skp x), info := info } } ∧
      exec (.sknp x) s = .next { s with
        run := .halted
        err := { kind := .keyIndexViolation, pc := s.pc, opcode := encode (.sknp x), info := info } })

/-- R154 with D24 (log 6, 28): Fx0A with the host's answer k there loads zext_8(k) and advances; the answer is taken and
the wait is over. It does not read the latch. -/
def Obligations.KeyReadTakesTheAnswer : Prop :=
  ∀ (x : Reg) (s : State) (k : BitVec 4) (rest : List (BitVec 4)), s.keyIn = k :: rest →
    ∃ t, exec (.ldVxK x) s = .next t ∧
      t = { s with V := t.V, pc := s.pc + 2, keyIn := rest, waiting := false } ∧
      (t.readV x).toNat = k.toNat ∧ ∀ r, r ≠ x → t.readV r = s.readV r

/-- R40, R154 with D24; the wait as a step that changes nothing but `waiting` is the model's choice (log 6), and so is the
notification as an entry of `frames` (log 8). While there is
no answer nothing changes, no timer ticks and nobody is notified; once the host answers k, the step completes with Vx = k,
one tick and one notification. -/
def Obligations.KeyReadHoldsUntilAnswered : Prop :=
  ∀ (x : Reg) (s : State) (k : BitVec 4), s.run = .running → s.fetchDecode = .ok (.ldVxK x) → s.keyIn = [] →
    ∃ w m u, step s = .next w ∧ w = { s with dirty := false, waiting := true } ∧
      (HostMove.answerKey k).apply w = some m ∧ step m = .next u ∧
      u = { s with
        V := u.V, pc := s.pc + 2, dt := u.dt, st := u.st, dirty := false, waiting := false,
        frames := false :: s.frames } ∧
      (u.readV x).toNat = k.toNat ∧ (∀ r, r ≠ x → u.readV r = s.readV r) ∧
      u.dt.toNat = s.dt.toNat - 1 ∧ u.st.toNat = s.st.toNat - 1

/-! ### Timers and index -/

/-- R159, R160, R161: Fx07 reads DT, Fx15 writes DT, Fx18 writes ST, pc + 2, nothing else; with the tick of the same step
(R160, R161: "the step ends with DT = Vx - 1 when Vx > 0 and DT = 0 when Vx = 0"). -/
def Obligations.TimerInstructions : Prop :=
  ∀ (x : Reg) (s : State),
    (∃ t, exec (.ldVxDt x) s = .next t ∧ t = { s with V := t.V, pc := s.pc + 2 } ∧ t.readV x = s.dt ∧
      ∀ r, r ≠ x → t.readV r = s.readV r) ∧
    exec (.ldDtVx x) s = .next { s with dt := s.readV x, pc := s.pc + 2 } ∧
    exec (.ldStVx x) s = .next { s with st := s.readV x, pc := s.pc + 2 } ∧
    (∀ t, exec (.ldDtVx x) s = .next t → t.tick.dt.toNat = (s.readV x).toNat - 1) ∧
    (∀ t, exec (.ldStVx x) s = .next t → t.tick.st.toNat = (s.readV x).toNat - 1)

/-- R120, R162 with D8 and D10 (log 14, 16): I <- (I + Vx) mod 4096 and VF <- carry, written last and on every execution;
with x = F the addend is the old VF. -/
def Obligations.AddToIndexWrapsWithFlag : Prop :=
  ∀ (x : Reg) (s : State), ∃ t, exec (.addI x) s = .next t ∧
    t = { s with V := t.V, I := t.I, pc := s.pc + 2 } ∧
    t.I.toNat = (s.I.toNat + (s.readV x).toNat) % 4096 ∧
    (t.readV 15).toNat = (if s.I.toNat + (s.readV x).toNat > 0xFFF then 1 else 0) ∧
    ∀ r, r ≠ 15 → t.readV r = s.readV r

/-- R163: I <- 5 * Vx for the whole 8-bit value, not masked; pc + 2, nothing else. -/
def Obligations.GlyphAddressIsFiveTimesVx : Prop :=
  ∀ (x : Reg) (s : State), ∃ t, exec (.ldF x) s = .next t ∧
    t = { s with I := t.I, pc := s.pc + 2 } ∧ t.I.toNat = 5 * (s.readV x).toNat

/-! ### Memory transfer -/

/-- R169 with D5 (log 25): hundreds, tens and units of Vx at I, I + 1, I + 2; every other byte, I and the registers are
unchanged. -/
def Obligations.DecimalDigitsAreStored : Prop :=
  ∀ (x : Reg) (s : State), s.I.toNat + 2 ≤ 0xFFF →
    ∃ t, exec (.ldB x) s = .next t ∧ t = { s with mem := t.mem, pc := s.pc + 2 } ∧
      (t.readByte s.I.toNat).toNat = (s.readV x).toNat / 100 ∧
      (t.readByte (s.I.toNat + 1)).toNat = (s.readV x).toNat / 10 % 10 ∧
      (t.readByte (s.I.toNat + 2)).toNat = (s.readV x).toNat % 10 ∧
      ∀ a, a < s.I.toNat ∨ s.I.toNat + 2 < a → t.readByte a = s.readByte a

/-- R170 with D5 and D15 (log 20, 25): Vk at I + k for k in 0..x; every other byte, I and the registers are unchanged. -/
def Obligations.RegistersAreStored : Prop :=
  ∀ (x : Reg) (s : State), s.I.toNat + x.val ≤ 0xFFF →
    ∃ t, exec (.ldMemVx x) s = .next t ∧ t = { s with mem := t.mem, pc := s.pc + 2 } ∧
      (∀ k : Reg, k.val ≤ x.val → t.readByte (s.I.toNat + k.val) = s.readV k) ∧
      ∀ a, a < s.I.toNat ∨ s.I.toNat + x.val < a → t.readByte a = s.readByte a

/-- R171 with D5 and D15 (log 20, 25): Vk from I + k for k in 0..x, VF like any other; the registers above x, I and memory
are unchanged. -/
def Obligations.RegistersAreLoaded : Prop :=
  ∀ (x : Reg) (s : State), s.I.toNat + x.val ≤ 0xFFF →
    ∃ t, exec (.ldVxMem x) s = .next t ∧ t = { s with V := t.V, pc := s.pc + 2 } ∧
      (∀ k : Reg, k.val ≤ x.val → t.readV k = s.readByte (s.I.toNat + k.val)) ∧
      ∀ k : Reg, x.val < k.val → t.readV k = s.readV k

/-- R55, R180 with D5, D14 (log 18, 25): an I-relative access whose extent runs past 0xFFF writes nothing and raises
AddressViolation(0x1000). -/
def Obligations.ExtentPastMemoryFaultsWithNoEffect : Prop :=
  ∀ (i : Instr) (s : State),
    ((∃ x y n, i = .drw x y n ∧ n.val > 0 ∧ s.I.toNat + n.val - 1 > 0xFFF) ∨
      (∃ x, i = .ldB x ∧ s.I.toNat + 2 > 0xFFF) ∨
      (∃ x, (i = .ldMemVx x ∨ i = .ldVxMem x) ∧ s.I.toNat + x.val > 0xFFF)) →
    exec i s = .next { s with
      run := .halted
      err := { kind := .addressViolation, pc := s.pc, opcode := encode i, info := 0x1000 } }

/-- R172 (derived): Fx55 then Fx65, same x, same I, the stored bytes not overwritten between, restores V0..Vx whatever the
registers held between. -/
def Obligations.StoreThenLoadRestores : Prop :=
  ∀ (x : Reg) (s t m : State), s.I.toNat + x.val ≤ 0xFFF → exec (.ldMemVx x) s = .next t → m.I = s.I →
    (∀ k, k ≤ x.val → m.readByte (s.I.toNat + k) = t.readByte (s.I.toNat + k)) →
    ∃ u, exec (.ldVxMem x) m = .next u ∧ ∀ k : Reg, k.val ≤ x.val → u.readV k = s.readV k

/-- R60 (derived): the two bytes Fx55 stored at I and I + 1 are the word the fetch at I finds, "even if that is the very
next step"; V0 is its high byte. -/
def Obligations.StoredWordIsTheOneFetched : Prop :=
  ∀ (x : Reg) (s t : State), 1 ≤ x.val → s.I.toNat + x.val ≤ 0xFFF → exec (.ldMemVx x) s = .next t →
    t.run = s.run ∧
    ∀ u : State, u.pc = s.I.setWidth 16 → u.mem = t.mem → u.cfg = t.cfg →
      u.fetch = .ok (s.readV 0 ++ s.readV 1)

/-! ### Invariants, reset, the host -/

/-- R34 (D22: stack slots, run and err are the spec's own choice, log 11), for every value of the parameters, with the
defaults of SYS_POLICY and SHIFT_SOURCE (R7; log 1, 3, 4) in State.reset; FONT is read through memory. The fields after
err are the model's (log 5, 6, 8, 9) and are not stated. -/
def Obligations.ResetValues : Prop :=
  State.reset = State.resetWith State.reset.cfg ∧
  State.reset.cfg.sysPolicy = .nop ∧ State.reset.cfg.shiftSource = .vx ∧
  ∀ cfg : Config,
    (∀ a, (State.resetWith cfg).readByte a = if h : a < 80 then cfg.font[a] else 0) ∧
    (∀ r, (State.resetWith cfg).readV r = 0) ∧ (State.resetWith cfg).I = 0 ∧ (State.resetWith cfg).pc = 0x200 ∧
    (State.resetWith cfg).sp = 0 ∧ (∀ k : Fin 16, (State.resetWith cfg).stack[k] = 0) ∧
    (State.resetWith cfg).dt = 0 ∧ (State.resetWith cfg).st = 0 ∧
    (∀ (row : Fin 32) (col : Fin 64), (State.resetWith cfg).fb[row][col] = false) ∧
    (∀ k : Fin 16, (State.resetWith cfg).keys[k] = false) ∧ (State.resetWith cfg).run = .running ∧
    (State.resetWith cfg).err = { kind := .none, pc := 0, opcode := 0, info := 0 } ∧
    (State.resetWith cfg).cfg = cfg

/-- R45: the invariant holds after reset. -/
def Obligations.ResetMeetsTheInvariant : Prop := ∀ cfg : Config, (State.resetWith cfg).Inv

/-- R45 (derived), R20, R22: every step keeps the invariant: canonical memory, pc at most 0x10FE, the slots in use at most
0xFFE, err matching run, dirty forgotten, a wait only at an Fx0A. -/
def Obligations.StepKeepsTheInvariant : Prop := ∀ s t : State, s.Inv → step s = .next t → t.Inv

/-- R42, R45: every move of the host keeps it. -/
def Obligations.HostMovesKeepTheInvariant : Prop :=
  ∀ (m : HostMove) (s t : State), s.Inv → m.apply s = some t → t.Inv

/-- R20, R45 (derived): in every reachable state a running machine's step is a next state, so no run ends but in HALTED
(R92), and pc stays within 0..0x10FE: no 16-bit wrap ever happens. That the step always is a next state rests on the model's
choices: an unanswered Fx0A is one (log 6; in R154 that step does not end), the host returns from the notification (log 8),
and a fault is one, with `Fault.halted` for the step that HALTED does not have (log 10). -/
def Obligations.ReachableMachinesStopOnlyHalted : Prop :=
  ∀ s : State, Reachable s →
    s.pc.toNat ≤ 0x10FE ∧ (s.run = .running → ∃ t, step s = .next t) ∧
    (∀ r, step s = .fault r → s.run = .halted ∧ s.err.kind ≠ .none) ∧ (∀ r, step s ≠ .refused r)

/-- R43, R182, R208, R209 with D27 (log 29, 30): the launch state of an image of at most 3584 bytes; a longer one is refused
and there is no launch. -/
def Obligations.BootPlacesTheImage : Prop :=
  ∀ (s : State) (image : List Byte),
    (image.length ≤ 3584 → ∃ t, s.boot image = some t ∧ t = { s.hostReset with mem := t.mem } ∧
      ∀ a, t.readByte a =
        if 0x200 ≤ a then (image[a - 0x200]?).getD (Memory.initial s.cfg.font a) else Memory.initial s.cfg.font a) ∧
    (image.length > 3584 → s.boot image = none)

/-- R193, R206: reset leaves HALTED and gives the reset state of R34, from any state in which the host may call it, and is
idempotent; what belongs to the environment stays (log 13). -/
def Obligations.HostResetRestoresTheResetState : Prop :=
  ∀ s : State, s.waiting = false →
    ∃ t, HostMove.reset.apply s = some t ∧ HostMove.reset.apply t = some t ∧
      t = { State.resetWith s.cfg with
        randIn := s.randIn, randDrawn := s.randDrawn, keyIn := s.keyIn, frames := s.frames }
end

