-- ==== Sys2Proof/Laws/Decode.lean ====
section
/-! SUPPORT. Words and their fields as numbers (30_encoding.md R65), the fields of a packed word, a word packed from its
fields, and the bytes of a word (20_memory.md R47). -/

namespace Sys2Proof

/-- Concatenation as arithmetic. -/
theorem toNat_append_eq {m n : Nat} (a : BitVec m) (b : BitVec n) : (a ++ b).toNat = a.toNat * 2 ^ n + b.toNat := by
  rw [BitVec.toNat_append, ← Nat.shiftLeft_add_eq_or_of_lt b.isLt, Nat.shiftLeft_eq]

section Numbers

variable (op : Word)

theorem toNat_fieldT : (fieldT op).toNat = op.toNat / 4096 := by
  have := op.isLt
  simp [fieldT, Nat.shiftRight_eq_div_pow]
  omega

theorem val_fieldX : (fieldX op).val = op.toNat / 256 % 16 := by
  simp [fieldX, Nat.shiftRight_eq_div_pow]

theorem val_fieldY : (fieldY op).val = op.toNat / 16 % 16 := by
  simp [fieldY, Nat.shiftRight_eq_div_pow]

theorem toNat_fieldN : (fieldN op).toNat = op.toNat % 16 := by
  simp [fieldN]

theorem toNat_fieldKk : (fieldKk op).toNat = op.toNat % 256 := by
  simp [fieldKk]

theorem toNat_fieldNnn : (fieldNnn op).toNat = op.toNat % 4096 := by
  simp [fieldNnn]

theorem toNat_highByte : (highByte op).toNat = op.toNat / 256 := by
  have := op.isLt
  simp [highByte, Nat.shiftRight_eq_div_pow]
  omega

theorem toNat_lowByte : (lowByte op).toNat = op.toNat % 256 := by
  simp [lowByte]

end Numbers

section Packed

variable (t : BitVec 4) (x y : Reg) (n : BitVec 4) (kk : Byte) (nnn : Index)

theorem toNat_packNibbles :
    (packNibbles t x y n).toNat = t.toNat * 4096 + x.val * 256 + y.val * 16 + n.toNat := by
  have h1 := toNat_append_eq (t ++ BitVec.ofFin (w := 4) x ++ BitVec.ofFin (w := 4) y) n
  have h2 := toNat_append_eq (t ++ BitVec.ofFin (w := 4) x) (BitVec.ofFin (w := 4) y)
  have h3 := toNat_append_eq t (BitVec.ofFin (w := 4) x)
  have h4 : (BitVec.ofFin (w := 4) x).toNat = x.val := rfl
  have h5 : (BitVec.ofFin (w := 4) y).toNat = y.val := rfl
  refine h1.trans ?_
  omega

theorem toNat_packByte : (packByte t x kk).toNat = t.toNat * 4096 + x.val * 256 + kk.toNat := by
  have h1 := toNat_append_eq (t ++ BitVec.ofFin (w := 4) x) kk
  have h2 := toNat_append_eq t (BitVec.ofFin (w := 4) x)
  have h3 : (BitVec.ofFin (w := 4) x).toNat = x.val := rfl
  refine h1.trans ?_
  omega

theorem toNat_packIndex : (packIndex t nnn).toNat = t.toNat * 4096 + nnn.toNat :=
  toNat_append_eq t nnn

theorem toNat_wordOfBytes (hi lo : Byte) : (wordOfBytes hi lo).toNat = hi.toNat * 256 + lo.toNat :=
  toNat_append_eq hi lo

@[simp] theorem fieldT_packNibbles : fieldT (packNibbles t x y n) = t := by
  apply BitVec.eq_of_toNat_eq
  rw [toNat_fieldT, toNat_packNibbles]
  omega

@[simp] theorem fieldX_packNibbles : fieldX (packNibbles t x y n) = x := by
  apply Fin.ext
  rw [val_fieldX, toNat_packNibbles]
  omega

@[simp] theorem fieldY_packNibbles : fieldY (packNibbles t x y n) = y := by
  apply Fin.ext
  rw [val_fieldY, toNat_packNibbles]
  omega

@[simp] theorem fieldN_packNibbles : fieldN (packNibbles t x y n) = n := by
  apply BitVec.eq_of_toNat_eq
  rw [toNat_fieldN, toNat_packNibbles]
  omega

@[simp] theorem fieldT_packByte : fieldT (packByte t x kk) = t := by
  apply BitVec.eq_of_toNat_eq
  rw [toNat_fieldT, toNat_packByte]
  omega

@[simp] theorem fieldX_packByte : fieldX (packByte t x kk) = x := by
  apply Fin.ext
  rw [val_fieldX, toNat_packByte]
  omega

@[simp] theorem fieldKk_packByte : fieldKk (packByte t x kk) = kk := by
  apply BitVec.eq_of_toNat_eq
  rw [toNat_fieldKk, toNat_packByte]
  omega

@[simp] theorem fieldT_packIndex : fieldT (packIndex t nnn) = t := by
  apply BitVec.eq_of_toNat_eq
  rw [toNat_fieldT, toNat_packIndex]
  omega

@[simp] theorem fieldNnn_packIndex : fieldNnn (packIndex t nnn) = nnn := by
  apply BitVec.eq_of_toNat_eq
  rw [toNat_fieldNnn, toNat_packIndex]
  omega

end Packed

/-- A word is its four nibbles. -/
theorem packNibbles_fields (op : Word) : packNibbles (fieldT op) (fieldX op) (fieldY op) (fieldN op) = op := by
  apply BitVec.eq_of_toNat_eq
  rw [toNat_packNibbles, toNat_fieldT, val_fieldX, val_fieldY, toNat_fieldN]
  omega

/-- A word is its top nibble, x and its low byte. -/
theorem packByte_fields (op : Word) : packByte (fieldT op) (fieldX op) (fieldKk op) = op := by
  apply BitVec.eq_of_toNat_eq
  rw [toNat_packByte, toNat_fieldT, val_fieldX, toNat_fieldKk]
  omega

/-- A word is its top nibble and its low twelve bits. -/
theorem packIndex_fields (op : Word) : packIndex (fieldT op) (fieldNnn op) = op := by
  apply BitVec.eq_of_toNat_eq
  rw [toNat_packIndex, toNat_fieldT, toNat_fieldNnn]
  omega

/-- A word is its high byte, at the lower address, and its low byte (R47). -/
@[simp] theorem wordOfBytes_bytes (op : Word) : wordOfBytes (highByte op) (lowByte op) = op := by
  apply BitVec.eq_of_toNat_eq
  rw [toNat_wordOfBytes, toNat_highByte, toNat_lowByte]
  omega

@[simp] theorem highByte_wordOfBytes (hi lo : Byte) : highByte (wordOfBytes hi lo) = hi := by
  apply BitVec.eq_of_toNat_eq
  rw [toNat_highByte, toNat_wordOfBytes]
  omega

@[simp] theorem lowByte_wordOfBytes (hi lo : Byte) : lowByte (wordOfBytes hi lo) = lo := by
  apply BitVec.eq_of_toNat_eq
  rw [toNat_lowByte, toNat_wordOfBytes]
  omega

/-- A word that decode refuses is named in the refusal. -/
theorem decodeWord_error {op : Word} {e : DecodeError} (h : decodeWord op = .error e) : e = .malformedOpcode op := by
  unfold decodeWord decodeFamily8 decodeFamilyE decodeFamilyF at h
  repeat' split at h
  all_goals simp_all

end Sys2Proof
end

