-- ==== Sys2Proof/Laws/State.lean ====
section
/-! SUPPORT. The updates of State, field by field: one lemma per field per update, so that no later proof unfolds a record
update; then what they do to a register read and a byte read. -/

namespace Sys2Proof.Machine

variable (s : State)

/-! ### State.writeByte -/

@[simp] theorem State.writeByte_cfg (a : Nat) (v : Byte) : (s.writeByte a v).cfg = s.cfg := rfl
@[simp] theorem State.writeByte_mem (a : Nat) (v : Byte) : (s.writeByte a v).mem = Memory.write s.cfg.font s.mem a v := rfl
@[simp] theorem State.writeByte_V (a : Nat) (v : Byte) : (s.writeByte a v).V = s.V := rfl
@[simp] theorem State.writeByte_I (a : Nat) (v : Byte) : (s.writeByte a v).I = s.I := rfl
@[simp] theorem State.writeByte_pc (a : Nat) (v : Byte) : (s.writeByte a v).pc = s.pc := rfl
@[simp] theorem State.writeByte_stack (a : Nat) (v : Byte) : (s.writeByte a v).stack = s.stack := rfl
@[simp] theorem State.writeByte_sp (a : Nat) (v : Byte) : (s.writeByte a v).sp = s.sp := rfl
@[simp] theorem State.writeByte_dt (a : Nat) (v : Byte) : (s.writeByte a v).dt = s.dt := rfl
@[simp] theorem State.writeByte_st (a : Nat) (v : Byte) : (s.writeByte a v).st = s.st := rfl
@[simp] theorem State.writeByte_fb (a : Nat) (v : Byte) : (s.writeByte a v).fb = s.fb := rfl
@[simp] theorem State.writeByte_keys (a : Nat) (v : Byte) : (s.writeByte a v).keys = s.keys := rfl
@[simp] theorem State.writeByte_run (a : Nat) (v : Byte) : (s.writeByte a v).run = s.run := rfl
@[simp] theorem State.writeByte_err (a : Nat) (v : Byte) : (s.writeByte a v).err = s.err := rfl
@[simp] theorem State.writeByte_dirty (a : Nat) (v : Byte) : (s.writeByte a v).dirty = s.dirty := rfl
@[simp] theorem State.writeByte_waiting (a : Nat) (v : Byte) : (s.writeByte a v).waiting = s.waiting := rfl
@[simp] theorem State.writeByte_randIn (a : Nat) (v : Byte) : (s.writeByte a v).randIn = s.randIn := rfl
@[simp] theorem State.writeByte_randDrawn (a : Nat) (v : Byte) : (s.writeByte a v).randDrawn = s.randDrawn := rfl
@[simp] theorem State.writeByte_keyIn (a : Nat) (v : Byte) : (s.writeByte a v).keyIn = s.keyIn := rfl
@[simp] theorem State.writeByte_frames (a : Nat) (v : Byte) : (s.writeByte a v).frames = s.frames := rfl

/-! ### State.writeV -/

@[simp] theorem State.writeV_cfg (x : Reg) (v : Byte) : (s.writeV x v).cfg = s.cfg := rfl
@[simp] theorem State.writeV_mem (x : Reg) (v : Byte) : (s.writeV x v).mem = s.mem := rfl
@[simp] theorem State.writeV_V (x : Reg) (v : Byte) : (s.writeV x v).V = s.V.set x v := rfl
@[simp] theorem State.writeV_I (x : Reg) (v : Byte) : (s.writeV x v).I = s.I := rfl
@[simp] theorem State.writeV_pc (x : Reg) (v : Byte) : (s.writeV x v).pc = s.pc := rfl
@[simp] theorem State.writeV_stack (x : Reg) (v : Byte) : (s.writeV x v).stack = s.stack := rfl
@[simp] theorem State.writeV_sp (x : Reg) (v : Byte) : (s.writeV x v).sp = s.sp := rfl
@[simp] theorem State.writeV_dt (x : Reg) (v : Byte) : (s.writeV x v).dt = s.dt := rfl
@[simp] theorem State.writeV_st (x : Reg) (v : Byte) : (s.writeV x v).st = s.st := rfl
@[simp] theorem State.writeV_fb (x : Reg) (v : Byte) : (s.writeV x v).fb = s.fb := rfl
@[simp] theorem State.writeV_keys (x : Reg) (v : Byte) : (s.writeV x v).keys = s.keys := rfl
@[simp] theorem State.writeV_run (x : Reg) (v : Byte) : (s.writeV x v).run = s.run := rfl
@[simp] theorem State.writeV_err (x : Reg) (v : Byte) : (s.writeV x v).err = s.err := rfl
@[simp] theorem State.writeV_dirty (x : Reg) (v : Byte) : (s.writeV x v).dirty = s.dirty := rfl
@[simp] theorem State.writeV_waiting (x : Reg) (v : Byte) : (s.writeV x v).waiting = s.waiting := rfl
@[simp] theorem State.writeV_randIn (x : Reg) (v : Byte) : (s.writeV x v).randIn = s.randIn := rfl
@[simp] theorem State.writeV_randDrawn (x : Reg) (v : Byte) : (s.writeV x v).randDrawn = s.randDrawn := rfl
@[simp] theorem State.writeV_keyIn (x : Reg) (v : Byte) : (s.writeV x v).keyIn = s.keyIn := rfl
@[simp] theorem State.writeV_frames (x : Reg) (v : Byte) : (s.writeV x v).frames = s.frames := rfl

/-! ### State.setI -/

@[simp] theorem State.setI_cfg (v : Index) : (s.setI v).cfg = s.cfg := rfl
@[simp] theorem State.setI_mem (v : Index) : (s.setI v).mem = s.mem := rfl
@[simp] theorem State.setI_V (v : Index) : (s.setI v).V = s.V := rfl
@[simp] theorem State.setI_I (v : Index) : (s.setI v).I = v := rfl
@[simp] theorem State.setI_pc (v : Index) : (s.setI v).pc = s.pc := rfl
@[simp] theorem State.setI_stack (v : Index) : (s.setI v).stack = s.stack := rfl
@[simp] theorem State.setI_sp (v : Index) : (s.setI v).sp = s.sp := rfl
@[simp] theorem State.setI_dt (v : Index) : (s.setI v).dt = s.dt := rfl
@[simp] theorem State.setI_st (v : Index) : (s.setI v).st = s.st := rfl
@[simp] theorem State.setI_fb (v : Index) : (s.setI v).fb = s.fb := rfl
@[simp] theorem State.setI_keys (v : Index) : (s.setI v).keys = s.keys := rfl
@[simp] theorem State.setI_run (v : Index) : (s.setI v).run = s.run := rfl
@[simp] theorem State.setI_err (v : Index) : (s.setI v).err = s.err := rfl
@[simp] theorem State.setI_dirty (v : Index) : (s.setI v).dirty = s.dirty := rfl
@[simp] theorem State.setI_waiting (v : Index) : (s.setI v).waiting = s.waiting := rfl
@[simp] theorem State.setI_randIn (v : Index) : (s.setI v).randIn = s.randIn := rfl
@[simp] theorem State.setI_randDrawn (v : Index) : (s.setI v).randDrawn = s.randDrawn := rfl
@[simp] theorem State.setI_keyIn (v : Index) : (s.setI v).keyIn = s.keyIn := rfl
@[simp] theorem State.setI_frames (v : Index) : (s.setI v).frames = s.frames := rfl

/-! ### State.setPc -/

@[simp] theorem State.setPc_cfg (w : Word) : (s.setPc w).cfg = s.cfg := rfl
@[simp] theorem State.setPc_mem (w : Word) : (s.setPc w).mem = s.mem := rfl
@[simp] theorem State.setPc_V (w : Word) : (s.setPc w).V = s.V := rfl
@[simp] theorem State.setPc_I (w : Word) : (s.setPc w).I = s.I := rfl
@[simp] theorem State.setPc_pc (w : Word) : (s.setPc w).pc = w := rfl
@[simp] theorem State.setPc_stack (w : Word) : (s.setPc w).stack = s.stack := rfl
@[simp] theorem State.setPc_sp (w : Word) : (s.setPc w).sp = s.sp := rfl
@[simp] theorem State.setPc_dt (w : Word) : (s.setPc w).dt = s.dt := rfl
@[simp] theorem State.setPc_st (w : Word) : (s.setPc w).st = s.st := rfl
@[simp] theorem State.setPc_fb (w : Word) : (s.setPc w).fb = s.fb := rfl
@[simp] theorem State.setPc_keys (w : Word) : (s.setPc w).keys = s.keys := rfl
@[simp] theorem State.setPc_run (w : Word) : (s.setPc w).run = s.run := rfl
@[simp] theorem State.setPc_err (w : Word) : (s.setPc w).err = s.err := rfl
@[simp] theorem State.setPc_dirty (w : Word) : (s.setPc w).dirty = s.dirty := rfl
@[simp] theorem State.setPc_waiting (w : Word) : (s.setPc w).waiting = s.waiting := rfl
@[simp] theorem State.setPc_randIn (w : Word) : (s.setPc w).randIn = s.randIn := rfl
@[simp] theorem State.setPc_randDrawn (w : Word) : (s.setPc w).randDrawn = s.randDrawn := rfl
@[simp] theorem State.setPc_keyIn (w : Word) : (s.setPc w).keyIn = s.keyIn := rfl
@[simp] theorem State.setPc_frames (w : Word) : (s.setPc w).frames = s.frames := rfl

/-! ### State.advance -/

@[simp] theorem State.advance_cfg (n : Word) : (s.advance n).cfg = s.cfg := rfl
@[simp] theorem State.advance_mem (n : Word) : (s.advance n).mem = s.mem := rfl
@[simp] theorem State.advance_V (n : Word) : (s.advance n).V = s.V := rfl
@[simp] theorem State.advance_I (n : Word) : (s.advance n).I = s.I := rfl
@[simp] theorem State.advance_pc (n : Word) : (s.advance n).pc = s.pc + n := rfl
@[simp] theorem State.advance_stack (n : Word) : (s.advance n).stack = s.stack := rfl
@[simp] theorem State.advance_sp (n : Word) : (s.advance n).sp = s.sp := rfl
@[simp] theorem State.advance_dt (n : Word) : (s.advance n).dt = s.dt := rfl
@[simp] theorem State.advance_st (n : Word) : (s.advance n).st = s.st := rfl
@[simp] theorem State.advance_fb (n : Word) : (s.advance n).fb = s.fb := rfl
@[simp] theorem State.advance_keys (n : Word) : (s.advance n).keys = s.keys := rfl
@[simp] theorem State.advance_run (n : Word) : (s.advance n).run = s.run := rfl
@[simp] theorem State.advance_err (n : Word) : (s.advance n).err = s.err := rfl
@[simp] theorem State.advance_dirty (n : Word) : (s.advance n).dirty = s.dirty := rfl
@[simp] theorem State.advance_waiting (n : Word) : (s.advance n).waiting = s.waiting := rfl
@[simp] theorem State.advance_randIn (n : Word) : (s.advance n).randIn = s.randIn := rfl
@[simp] theorem State.advance_randDrawn (n : Word) : (s.advance n).randDrawn = s.randDrawn := rfl
@[simp] theorem State.advance_keyIn (n : Word) : (s.advance n).keyIn = s.keyIn := rfl
@[simp] theorem State.advance_frames (n : Word) : (s.advance n).frames = s.frames := rfl

/-! ### State.skipIf -/

@[simp] theorem State.skipIf_cfg (c : Bool) : (s.skipIf c).cfg = s.cfg := rfl
@[simp] theorem State.skipIf_mem (c : Bool) : (s.skipIf c).mem = s.mem := rfl
@[simp] theorem State.skipIf_V (c : Bool) : (s.skipIf c).V = s.V := rfl
@[simp] theorem State.skipIf_I (c : Bool) : (s.skipIf c).I = s.I := rfl
@[simp] theorem State.skipIf_pc (c : Bool) : (s.skipIf c).pc = s.pc + (if c then 4 else 2) := rfl
@[simp] theorem State.skipIf_stack (c : Bool) : (s.skipIf c).stack = s.stack := rfl
@[simp] theorem State.skipIf_sp (c : Bool) : (s.skipIf c).sp = s.sp := rfl
@[simp] theorem State.skipIf_dt (c : Bool) : (s.skipIf c).dt = s.dt := rfl
@[simp] theorem State.skipIf_st (c : Bool) : (s.skipIf c).st = s.st := rfl
@[simp] theorem State.skipIf_fb (c : Bool) : (s.skipIf c).fb = s.fb := rfl
@[simp] theorem State.skipIf_keys (c : Bool) : (s.skipIf c).keys = s.keys := rfl
@[simp] theorem State.skipIf_run (c : Bool) : (s.skipIf c).run = s.run := rfl
@[simp] theorem State.skipIf_err (c : Bool) : (s.skipIf c).err = s.err := rfl
@[simp] theorem State.skipIf_dirty (c : Bool) : (s.skipIf c).dirty = s.dirty := rfl
@[simp] theorem State.skipIf_waiting (c : Bool) : (s.skipIf c).waiting = s.waiting := rfl
@[simp] theorem State.skipIf_randIn (c : Bool) : (s.skipIf c).randIn = s.randIn := rfl
@[simp] theorem State.skipIf_randDrawn (c : Bool) : (s.skipIf c).randDrawn = s.randDrawn := rfl
@[simp] theorem State.skipIf_keyIn (c : Bool) : (s.skipIf c).keyIn = s.keyIn := rfl
@[simp] theorem State.skipIf_frames (c : Bool) : (s.skipIf c).frames = s.frames := rfl

/-! ### State.setDt -/

@[simp] theorem State.setDt_cfg (v : Byte) : (s.setDt v).cfg = s.cfg := rfl
@[simp] theorem State.setDt_mem (v : Byte) : (s.setDt v).mem = s.mem := rfl
@[simp] theorem State.setDt_V (v : Byte) : (s.setDt v).V = s.V := rfl
@[simp] theorem State.setDt_I (v : Byte) : (s.setDt v).I = s.I := rfl
@[simp] theorem State.setDt_pc (v : Byte) : (s.setDt v).pc = s.pc := rfl
@[simp] theorem State.setDt_stack (v : Byte) : (s.setDt v).stack = s.stack := rfl
@[simp] theorem State.setDt_sp (v : Byte) : (s.setDt v).sp = s.sp := rfl
@[simp] theorem State.setDt_dt (v : Byte) : (s.setDt v).dt = v := rfl
@[simp] theorem State.setDt_st (v : Byte) : (s.setDt v).st = s.st := rfl
@[simp] theorem State.setDt_fb (v : Byte) : (s.setDt v).fb = s.fb := rfl
@[simp] theorem State.setDt_keys (v : Byte) : (s.setDt v).keys = s.keys := rfl
@[simp] theorem State.setDt_run (v : Byte) : (s.setDt v).run = s.run := rfl
@[simp] theorem State.setDt_err (v : Byte) : (s.setDt v).err = s.err := rfl
@[simp] theorem State.setDt_dirty (v : Byte) : (s.setDt v).dirty = s.dirty := rfl
@[simp] theorem State.setDt_waiting (v : Byte) : (s.setDt v).waiting = s.waiting := rfl
@[simp] theorem State.setDt_randIn (v : Byte) : (s.setDt v).randIn = s.randIn := rfl
@[simp] theorem State.setDt_randDrawn (v : Byte) : (s.setDt v).randDrawn = s.randDrawn := rfl
@[simp] theorem State.setDt_keyIn (v : Byte) : (s.setDt v).keyIn = s.keyIn := rfl
@[simp] theorem State.setDt_frames (v : Byte) : (s.setDt v).frames = s.frames := rfl

/-! ### State.setSt -/

@[simp] theorem State.setSt_cfg (v : Byte) : (s.setSt v).cfg = s.cfg := rfl
@[simp] theorem State.setSt_mem (v : Byte) : (s.setSt v).mem = s.mem := rfl
@[simp] theorem State.setSt_V (v : Byte) : (s.setSt v).V = s.V := rfl
@[simp] theorem State.setSt_I (v : Byte) : (s.setSt v).I = s.I := rfl
@[simp] theorem State.setSt_pc (v : Byte) : (s.setSt v).pc = s.pc := rfl
@[simp] theorem State.setSt_stack (v : Byte) : (s.setSt v).stack = s.stack := rfl
@[simp] theorem State.setSt_sp (v : Byte) : (s.setSt v).sp = s.sp := rfl
@[simp] theorem State.setSt_dt (v : Byte) : (s.setSt v).dt = s.dt := rfl
@[simp] theorem State.setSt_st (v : Byte) : (s.setSt v).st = v := rfl
@[simp] theorem State.setSt_fb (v : Byte) : (s.setSt v).fb = s.fb := rfl
@[simp] theorem State.setSt_keys (v : Byte) : (s.setSt v).keys = s.keys := rfl
@[simp] theorem State.setSt_run (v : Byte) : (s.setSt v).run = s.run := rfl
@[simp] theorem State.setSt_err (v : Byte) : (s.setSt v).err = s.err := rfl
@[simp] theorem State.setSt_dirty (v : Byte) : (s.setSt v).dirty = s.dirty := rfl
@[simp] theorem State.setSt_waiting (v : Byte) : (s.setSt v).waiting = s.waiting := rfl
@[simp] theorem State.setSt_randIn (v : Byte) : (s.setSt v).randIn = s.randIn := rfl
@[simp] theorem State.setSt_randDrawn (v : Byte) : (s.setSt v).randDrawn = s.randDrawn := rfl
@[simp] theorem State.setSt_keyIn (v : Byte) : (s.setSt v).keyIn = s.keyIn := rfl
@[simp] theorem State.setSt_frames (v : Byte) : (s.setSt v).frames = s.frames := rfl

/-! ### State.setFb -/

@[simp] theorem State.setFb_cfg (fb : Framebuffer) : (s.setFb fb).cfg = s.cfg := rfl
@[simp] theorem State.setFb_mem (fb : Framebuffer) : (s.setFb fb).mem = s.mem := rfl
@[simp] theorem State.setFb_V (fb : Framebuffer) : (s.setFb fb).V = s.V := rfl
@[simp] theorem State.setFb_I (fb : Framebuffer) : (s.setFb fb).I = s.I := rfl
@[simp] theorem State.setFb_pc (fb : Framebuffer) : (s.setFb fb).pc = s.pc := rfl
@[simp] theorem State.setFb_stack (fb : Framebuffer) : (s.setFb fb).stack = s.stack := rfl
@[simp] theorem State.setFb_sp (fb : Framebuffer) : (s.setFb fb).sp = s.sp := rfl
@[simp] theorem State.setFb_dt (fb : Framebuffer) : (s.setFb fb).dt = s.dt := rfl
@[simp] theorem State.setFb_st (fb : Framebuffer) : (s.setFb fb).st = s.st := rfl
@[simp] theorem State.setFb_fb (fb : Framebuffer) : (s.setFb fb).fb = fb := rfl
@[simp] theorem State.setFb_keys (fb : Framebuffer) : (s.setFb fb).keys = s.keys := rfl
@[simp] theorem State.setFb_run (fb : Framebuffer) : (s.setFb fb).run = s.run := rfl
@[simp] theorem State.setFb_err (fb : Framebuffer) : (s.setFb fb).err = s.err := rfl
@[simp] theorem State.setFb_dirty (fb : Framebuffer) : (s.setFb fb).dirty = s.dirty := rfl
@[simp] theorem State.setFb_waiting (fb : Framebuffer) : (s.setFb fb).waiting = s.waiting := rfl
@[simp] theorem State.setFb_randIn (fb : Framebuffer) : (s.setFb fb).randIn = s.randIn := rfl
@[simp] theorem State.setFb_randDrawn (fb : Framebuffer) : (s.setFb fb).randDrawn = s.randDrawn := rfl
@[simp] theorem State.setFb_keyIn (fb : Framebuffer) : (s.setFb fb).keyIn = s.keyIn := rfl
@[simp] theorem State.setFb_frames (fb : Framebuffer) : (s.setFb fb).frames = s.frames := rfl

/-! ### State.markDirty -/

@[simp] theorem State.markDirty_cfg : (s.markDirty).cfg = s.cfg := rfl
@[simp] theorem State.markDirty_mem : (s.markDirty).mem = s.mem := rfl
@[simp] theorem State.markDirty_V : (s.markDirty).V = s.V := rfl
@[simp] theorem State.markDirty_I : (s.markDirty).I = s.I := rfl
@[simp] theorem State.markDirty_pc : (s.markDirty).pc = s.pc := rfl
@[simp] theorem State.markDirty_stack : (s.markDirty).stack = s.stack := rfl
@[simp] theorem State.markDirty_sp : (s.markDirty).sp = s.sp := rfl
@[simp] theorem State.markDirty_dt : (s.markDirty).dt = s.dt := rfl
@[simp] theorem State.markDirty_st : (s.markDirty).st = s.st := rfl
@[simp] theorem State.markDirty_fb : (s.markDirty).fb = s.fb := rfl
@[simp] theorem State.markDirty_keys : (s.markDirty).keys = s.keys := rfl
@[simp] theorem State.markDirty_run : (s.markDirty).run = s.run := rfl
@[simp] theorem State.markDirty_err : (s.markDirty).err = s.err := rfl
@[simp] theorem State.markDirty_dirty : (s.markDirty).dirty = true := rfl
@[simp] theorem State.markDirty_waiting : (s.markDirty).waiting = s.waiting := rfl
@[simp] theorem State.markDirty_randIn : (s.markDirty).randIn = s.randIn := rfl
@[simp] theorem State.markDirty_randDrawn : (s.markDirty).randDrawn = s.randDrawn := rfl
@[simp] theorem State.markDirty_keyIn : (s.markDirty).keyIn = s.keyIn := rfl
@[simp] theorem State.markDirty_frames : (s.markDirty).frames = s.frames := rfl

/-! ### State.writeFlag -/

@[simp] theorem State.writeFlag_cfg (b : Bool) : (s.writeFlag b).cfg = s.cfg := rfl
@[simp] theorem State.writeFlag_mem (b : Bool) : (s.writeFlag b).mem = s.mem := rfl
@[simp] theorem State.writeFlag_V (b : Bool) : (s.writeFlag b).V = s.V.set Reg.vf (Byte.ofFlag b) := rfl
@[simp] theorem State.writeFlag_I (b : Bool) : (s.writeFlag b).I = s.I := rfl
@[simp] theorem State.writeFlag_pc (b : Bool) : (s.writeFlag b).pc = s.pc := rfl
@[simp] theorem State.writeFlag_stack (b : Bool) : (s.writeFlag b).stack = s.stack := rfl
@[simp] theorem State.writeFlag_sp (b : Bool) : (s.writeFlag b).sp = s.sp := rfl
@[simp] theorem State.writeFlag_dt (b : Bool) : (s.writeFlag b).dt = s.dt := rfl
@[simp] theorem State.writeFlag_st (b : Bool) : (s.writeFlag b).st = s.st := rfl
@[simp] theorem State.writeFlag_fb (b : Bool) : (s.writeFlag b).fb = s.fb := rfl
@[simp] theorem State.writeFlag_keys (b : Bool) : (s.writeFlag b).keys = s.keys := rfl
@[simp] theorem State.writeFlag_run (b : Bool) : (s.writeFlag b).run = s.run := rfl
@[simp] theorem State.writeFlag_err (b : Bool) : (s.writeFlag b).err = s.err := rfl
@[simp] theorem State.writeFlag_dirty (b : Bool) : (s.writeFlag b).dirty = s.dirty := rfl
@[simp] theorem State.writeFlag_waiting (b : Bool) : (s.writeFlag b).waiting = s.waiting := rfl
@[simp] theorem State.writeFlag_randIn (b : Bool) : (s.writeFlag b).randIn = s.randIn := rfl
@[simp] theorem State.writeFlag_randDrawn (b : Bool) : (s.writeFlag b).randDrawn = s.randDrawn := rfl
@[simp] theorem State.writeFlag_keyIn (b : Bool) : (s.writeFlag b).keyIn = s.keyIn := rfl
@[simp] theorem State.writeFlag_frames (b : Bool) : (s.writeFlag b).frames = s.frames := rfl

/-! ### State.raise -/

@[simp] theorem State.raise_cfg (k : ErrKind) (op info : Word) : (s.raise k op info).cfg = s.cfg := rfl
@[simp] theorem State.raise_mem (k : ErrKind) (op info : Word) : (s.raise k op info).mem = s.mem := rfl
@[simp] theorem State.raise_V (k : ErrKind) (op info : Word) : (s.raise k op info).V = s.V := rfl
@[simp] theorem State.raise_I (k : ErrKind) (op info : Word) : (s.raise k op info).I = s.I := rfl
@[simp] theorem State.raise_pc (k : ErrKind) (op info : Word) : (s.raise k op info).pc = s.pc := rfl
@[simp] theorem State.raise_stack (k : ErrKind) (op info : Word) : (s.raise k op info).stack = s.stack := rfl
@[simp] theorem State.raise_sp (k : ErrKind) (op info : Word) : (s.raise k op info).sp = s.sp := rfl
@[simp] theorem State.raise_dt (k : ErrKind) (op info : Word) : (s.raise k op info).dt = s.dt := rfl
@[simp] theorem State.raise_st (k : ErrKind) (op info : Word) : (s.raise k op info).st = s.st := rfl
@[simp] theorem State.raise_fb (k : ErrKind) (op info : Word) : (s.raise k op info).fb = s.fb := rfl
@[simp] theorem State.raise_keys (k : ErrKind) (op info : Word) : (s.raise k op info).keys = s.keys := rfl
@[simp] theorem State.raise_run (k : ErrKind) (op info : Word) : (s.raise k op info).run = .halted := rfl
@[simp] theorem State.raise_err (k : ErrKind) (op info : Word) : (s.raise k op info).err = { kind := k, pc := s.pc, opcode := op, info := info } := rfl
@[simp] theorem State.raise_dirty (k : ErrKind) (op info : Word) : (s.raise k op info).dirty = s.dirty := rfl
@[simp] theorem State.raise_waiting (k : ErrKind) (op info : Word) : (s.raise k op info).waiting = s.waiting := rfl
@[simp] theorem State.raise_randIn (k : ErrKind) (op info : Word) : (s.raise k op info).randIn = s.randIn := rfl
@[simp] theorem State.raise_randDrawn (k : ErrKind) (op info : Word) : (s.raise k op info).randDrawn = s.randDrawn := rfl
@[simp] theorem State.raise_keyIn (k : ErrKind) (op info : Word) : (s.raise k op info).keyIn = s.keyIn := rfl
@[simp] theorem State.raise_frames (k : ErrKind) (op info : Word) : (s.raise k op info).frames = s.frames := rfl

/-! ### State.afterDraw -/

@[simp] theorem State.afterDraw_cfg : (s.afterDraw).cfg = s.cfg := rfl
@[simp] theorem State.afterDraw_mem : (s.afterDraw).mem = s.mem := rfl
@[simp] theorem State.afterDraw_V : (s.afterDraw).V = s.V := rfl
@[simp] theorem State.afterDraw_I : (s.afterDraw).I = s.I := rfl
@[simp] theorem State.afterDraw_pc : (s.afterDraw).pc = s.pc := rfl
@[simp] theorem State.afterDraw_stack : (s.afterDraw).stack = s.stack := rfl
@[simp] theorem State.afterDraw_sp : (s.afterDraw).sp = s.sp := rfl
@[simp] theorem State.afterDraw_dt : (s.afterDraw).dt = s.dt := rfl
@[simp] theorem State.afterDraw_st : (s.afterDraw).st = s.st := rfl
@[simp] theorem State.afterDraw_fb : (s.afterDraw).fb = s.fb := rfl
@[simp] theorem State.afterDraw_keys : (s.afterDraw).keys = s.keys := rfl
@[simp] theorem State.afterDraw_run : (s.afterDraw).run = s.run := rfl
@[simp] theorem State.afterDraw_err : (s.afterDraw).err = s.err := rfl
@[simp] theorem State.afterDraw_dirty : (s.afterDraw).dirty = s.dirty := rfl
@[simp] theorem State.afterDraw_waiting : (s.afterDraw).waiting = s.waiting := rfl
@[simp] theorem State.afterDraw_randIn : (s.afterDraw).randIn = s.randIn.tail := rfl
@[simp] theorem State.afterDraw_randDrawn : (s.afterDraw).randDrawn = s.randDrawn + 1 := rfl
@[simp] theorem State.afterDraw_keyIn : (s.afterDraw).keyIn = s.keyIn := rfl
@[simp] theorem State.afterDraw_frames : (s.afterDraw).frames = s.frames := rfl

/-! ### State.await -/

@[simp] theorem State.await_cfg : (s.await).cfg = s.cfg := rfl
@[simp] theorem State.await_mem : (s.await).mem = s.mem := rfl
@[simp] theorem State.await_V : (s.await).V = s.V := rfl
@[simp] theorem State.await_I : (s.await).I = s.I := rfl
@[simp] theorem State.await_pc : (s.await).pc = s.pc := rfl
@[simp] theorem State.await_stack : (s.await).stack = s.stack := rfl
@[simp] theorem State.await_sp : (s.await).sp = s.sp := rfl
@[simp] theorem State.await_dt : (s.await).dt = s.dt := rfl
@[simp] theorem State.await_st : (s.await).st = s.st := rfl
@[simp] theorem State.await_fb : (s.await).fb = s.fb := rfl
@[simp] theorem State.await_keys : (s.await).keys = s.keys := rfl
@[simp] theorem State.await_run : (s.await).run = s.run := rfl
@[simp] theorem State.await_err : (s.await).err = s.err := rfl
@[simp] theorem State.await_dirty : (s.await).dirty = s.dirty := rfl
@[simp] theorem State.await_waiting : (s.await).waiting = true := rfl
@[simp] theorem State.await_randIn : (s.await).randIn = s.randIn := rfl
@[simp] theorem State.await_randDrawn : (s.await).randDrawn = s.randDrawn := rfl
@[simp] theorem State.await_keyIn : (s.await).keyIn = s.keyIn := rfl
@[simp] theorem State.await_frames : (s.await).frames = s.frames := rfl

/-! ### State.answered -/

@[simp] theorem State.answered_cfg : (s.answered).cfg = s.cfg := rfl
@[simp] theorem State.answered_mem : (s.answered).mem = s.mem := rfl
@[simp] theorem State.answered_V : (s.answered).V = s.V := rfl
@[simp] theorem State.answered_I : (s.answered).I = s.I := rfl
@[simp] theorem State.answered_pc : (s.answered).pc = s.pc := rfl
@[simp] theorem State.answered_stack : (s.answered).stack = s.stack := rfl
@[simp] theorem State.answered_sp : (s.answered).sp = s.sp := rfl
@[simp] theorem State.answered_dt : (s.answered).dt = s.dt := rfl
@[simp] theorem State.answered_st : (s.answered).st = s.st := rfl
@[simp] theorem State.answered_fb : (s.answered).fb = s.fb := rfl
@[simp] theorem State.answered_keys : (s.answered).keys = s.keys := rfl
@[simp] theorem State.answered_run : (s.answered).run = s.run := rfl
@[simp] theorem State.answered_err : (s.answered).err = s.err := rfl
@[simp] theorem State.answered_dirty : (s.answered).dirty = s.dirty := rfl
@[simp] theorem State.answered_waiting : (s.answered).waiting = false := rfl
@[simp] theorem State.answered_randIn : (s.answered).randIn = s.randIn := rfl
@[simp] theorem State.answered_randDrawn : (s.answered).randDrawn = s.randDrawn := rfl
@[simp] theorem State.answered_keyIn : (s.answered).keyIn = s.keyIn.tail := rfl
@[simp] theorem State.answered_frames : (s.answered).frames = s.frames := rfl

/-! ### State.beginStep -/

@[simp] theorem State.beginStep_cfg : (s.beginStep).cfg = s.cfg := rfl
@[simp] theorem State.beginStep_mem : (s.beginStep).mem = s.mem := rfl
@[simp] theorem State.beginStep_V : (s.beginStep).V = s.V := rfl
@[simp] theorem State.beginStep_I : (s.beginStep).I = s.I := rfl
@[simp] theorem State.beginStep_pc : (s.beginStep).pc = s.pc := rfl
@[simp] theorem State.beginStep_stack : (s.beginStep).stack = s.stack := rfl
@[simp] theorem State.beginStep_sp : (s.beginStep).sp = s.sp := rfl
@[simp] theorem State.beginStep_dt : (s.beginStep).dt = s.dt := rfl
@[simp] theorem State.beginStep_st : (s.beginStep).st = s.st := rfl
@[simp] theorem State.beginStep_fb : (s.beginStep).fb = s.fb := rfl
@[simp] theorem State.beginStep_keys : (s.beginStep).keys = s.keys := rfl
@[simp] theorem State.beginStep_run : (s.beginStep).run = s.run := rfl
@[simp] theorem State.beginStep_err : (s.beginStep).err = s.err := rfl
@[simp] theorem State.beginStep_dirty : (s.beginStep).dirty = false := rfl
@[simp] theorem State.beginStep_waiting : (s.beginStep).waiting = false := rfl
@[simp] theorem State.beginStep_randIn : (s.beginStep).randIn = s.randIn := rfl
@[simp] theorem State.beginStep_randDrawn : (s.beginStep).randDrawn = s.randDrawn := rfl
@[simp] theorem State.beginStep_keyIn : (s.beginStep).keyIn = s.keyIn := rfl
@[simp] theorem State.beginStep_frames : (s.beginStep).frames = s.frames := rfl

/-! ### State.tick -/

@[simp] theorem State.tick_cfg : (s.tick).cfg = s.cfg := rfl
@[simp] theorem State.tick_mem : (s.tick).mem = s.mem := rfl
@[simp] theorem State.tick_V : (s.tick).V = s.V := rfl
@[simp] theorem State.tick_I : (s.tick).I = s.I := rfl
@[simp] theorem State.tick_pc : (s.tick).pc = s.pc := rfl
@[simp] theorem State.tick_stack : (s.tick).stack = s.stack := rfl
@[simp] theorem State.tick_sp : (s.tick).sp = s.sp := rfl
@[simp] theorem State.tick_dt : (s.tick).dt = tickTimer s.dt := rfl
@[simp] theorem State.tick_st : (s.tick).st = tickTimer s.st := rfl
@[simp] theorem State.tick_fb : (s.tick).fb = s.fb := rfl
@[simp] theorem State.tick_keys : (s.tick).keys = s.keys := rfl
@[simp] theorem State.tick_run : (s.tick).run = s.run := rfl
@[simp] theorem State.tick_err : (s.tick).err = s.err := rfl
@[simp] theorem State.tick_dirty : (s.tick).dirty = s.dirty := rfl
@[simp] theorem State.tick_waiting : (s.tick).waiting = s.waiting := rfl
@[simp] theorem State.tick_randIn : (s.tick).randIn = s.randIn := rfl
@[simp] theorem State.tick_randDrawn : (s.tick).randDrawn = s.randDrawn := rfl
@[simp] theorem State.tick_keyIn : (s.tick).keyIn = s.keyIn := rfl
@[simp] theorem State.tick_frames : (s.tick).frames = s.frames := rfl

/-! ### State.notify -/

@[simp] theorem State.notify_cfg : (s.notify).cfg = s.cfg := rfl
@[simp] theorem State.notify_mem : (s.notify).mem = s.mem := rfl
@[simp] theorem State.notify_V : (s.notify).V = s.V := rfl
@[simp] theorem State.notify_I : (s.notify).I = s.I := rfl
@[simp] theorem State.notify_pc : (s.notify).pc = s.pc := rfl
@[simp] theorem State.notify_stack : (s.notify).stack = s.stack := rfl
@[simp] theorem State.notify_sp : (s.notify).sp = s.sp := rfl
@[simp] theorem State.notify_dt : (s.notify).dt = s.dt := rfl
@[simp] theorem State.notify_st : (s.notify).st = s.st := rfl
@[simp] theorem State.notify_fb : (s.notify).fb = s.fb := rfl
@[simp] theorem State.notify_keys : (s.notify).keys = s.keys := rfl
@[simp] theorem State.notify_run : (s.notify).run = s.run := rfl
@[simp] theorem State.notify_err : (s.notify).err = s.err := rfl
@[simp] theorem State.notify_dirty : (s.notify).dirty = false := rfl
@[simp] theorem State.notify_waiting : (s.notify).waiting = s.waiting := rfl
@[simp] theorem State.notify_randIn : (s.notify).randIn = s.randIn := rfl
@[simp] theorem State.notify_randDrawn : (s.notify).randDrawn = s.randDrawn := rfl
@[simp] theorem State.notify_keyIn : (s.notify).keyIn = s.keyIn := rfl
@[simp] theorem State.notify_frames : (s.notify).frames = s.dirty :: s.frames := rfl

/-! ### Register reads -/

theorem State.readV_writeV (x r : Reg) (v : Byte) :
    (s.writeV x v).readV r = if r = x then v else s.readV r := by
  have h : (x.val = r.val) = (r = x) := propext ⟨fun e => (Fin.ext e).symm, fun e => e ▸ rfl⟩
  simp only [State.readV, State.writeV_V, Fin.getElem_fin, Vector.getElem_set, h]

@[simp] theorem State.readV_writeV_self (x : Reg) (v : Byte) : (s.writeV x v).readV x = v := by
  simp [State.readV_writeV]

theorem State.readV_writeV_of_ne {x r : Reg} (v : Byte) (h : r ≠ x) : (s.writeV x v).readV r = s.readV r := by
  simp [State.readV_writeV, h]

theorem State.readV_writeFlag (r : Reg) (b : Bool) :
    (s.writeFlag b).readV r = if r = Reg.vf then Byte.ofFlag b else s.readV r :=
  s.readV_writeV Reg.vf r _

@[simp] theorem State.readV_writeByte (a : Nat) (v : Byte) (r : Reg) : (s.writeByte a v).readV r = s.readV r := rfl
@[simp] theorem State.readV_setI (v : Index) (r : Reg) : (s.setI v).readV r = s.readV r := rfl
@[simp] theorem State.readV_setPc (w : Word) (r : Reg) : (s.setPc w).readV r = s.readV r := rfl
@[simp] theorem State.readV_advance (n : Word) (r : Reg) : (s.advance n).readV r = s.readV r := rfl
@[simp] theorem State.readV_skipIf (c : Bool) (r : Reg) : (s.skipIf c).readV r = s.readV r := rfl
@[simp] theorem State.readV_setDt (v : Byte) (r : Reg) : (s.setDt v).readV r = s.readV r := rfl
@[simp] theorem State.readV_setSt (v : Byte) (r : Reg) : (s.setSt v).readV r = s.readV r := rfl
@[simp] theorem State.readV_setFb (fb : Framebuffer) (r : Reg) : (s.setFb fb).readV r = s.readV r := rfl
@[simp] theorem State.readV_markDirty (r : Reg) : (s.markDirty).readV r = s.readV r := rfl
@[simp] theorem State.readV_raise (k : ErrKind) (op info : Word) (r : Reg) : (s.raise k op info).readV r = s.readV r := rfl
@[simp] theorem State.readV_afterDraw (r : Reg) : (s.afterDraw).readV r = s.readV r := rfl
@[simp] theorem State.readV_await (r : Reg) : (s.await).readV r = s.readV r := rfl
@[simp] theorem State.readV_answered (r : Reg) : (s.answered).readV r = s.readV r := rfl
@[simp] theorem State.readV_beginStep (r : Reg) : (s.beginStep).readV r = s.readV r := rfl
@[simp] theorem State.readV_tick (r : Reg) : (s.tick).readV r = s.readV r := rfl
@[simp] theorem State.readV_notify (r : Reg) : (s.notify).readV r = s.readV r := rfl

/-! ### Byte reads -/

@[simp] theorem State.readByte_writeV (x : Reg) (v : Byte) (adr : Nat) : (s.writeV x v).readByte adr = s.readByte adr := rfl
@[simp] theorem State.readByte_setI (v : Index) (adr : Nat) : (s.setI v).readByte adr = s.readByte adr := rfl
@[simp] theorem State.readByte_setPc (w : Word) (adr : Nat) : (s.setPc w).readByte adr = s.readByte adr := rfl
@[simp] theorem State.readByte_advance (n : Word) (adr : Nat) : (s.advance n).readByte adr = s.readByte adr := rfl
@[simp] theorem State.readByte_skipIf (c : Bool) (adr : Nat) : (s.skipIf c).readByte adr = s.readByte adr := rfl
@[simp] theorem State.readByte_setDt (v : Byte) (adr : Nat) : (s.setDt v).readByte adr = s.readByte adr := rfl
@[simp] theorem State.readByte_setSt (v : Byte) (adr : Nat) : (s.setSt v).readByte adr = s.readByte adr := rfl
@[simp] theorem State.readByte_setFb (fb : Framebuffer) (adr : Nat) : (s.setFb fb).readByte adr = s.readByte adr := rfl
@[simp] theorem State.readByte_markDirty (adr : Nat) : (s.markDirty).readByte adr = s.readByte adr := rfl
@[simp] theorem State.readByte_writeFlag (b : Bool) (adr : Nat) : (s.writeFlag b).readByte adr = s.readByte adr := rfl
@[simp] theorem State.readByte_raise (k : ErrKind) (op info : Word) (adr : Nat) : (s.raise k op info).readByte adr = s.readByte adr := rfl
@[simp] theorem State.readByte_afterDraw (adr : Nat) : (s.afterDraw).readByte adr = s.readByte adr := rfl
@[simp] theorem State.readByte_await (adr : Nat) : (s.await).readByte adr = s.readByte adr := rfl
@[simp] theorem State.readByte_answered (adr : Nat) : (s.answered).readByte adr = s.readByte adr := rfl
@[simp] theorem State.readByte_beginStep (adr : Nat) : (s.beginStep).readByte adr = s.readByte adr := rfl
@[simp] theorem State.readByte_tick (adr : Nat) : (s.tick).readByte adr = s.readByte adr := rfl
@[simp] theorem State.readByte_notify (adr : Nat) : (s.notify).readByte adr = s.readByte adr := rfl

end Sys2Proof.Machine
end

