-- ==== Sys2Proof/Laws/Memory.lean ====
section
/-! SUPPORT. Memory: a read after a write, the canonical form kept by every operation, canonical memories that read alike
are equal, and the block operations over them. -/

namespace Sys2Proof.Machine

namespace Memory

variable {font : Font}

theorem lookup_erase (a b : Nat) (m : List Host.Cell) :
    lookup b (erase a m) = if b = a then none else lookup b m := by
  induction m with
  | nil => simp [erase, lookup]
  | cons c m ih =>
    obtain ⟨d, w⟩ := c
    by_cases had : a = d
    · subst had
      rw [erase, if_pos rfl, ih]
      by_cases hba : b = a <;> simp [lookup, hba]
    · by_cases hbd : b = d
      · subst hbd
        simp [erase, lookup, had, Ne.symm had]
      · simp [erase, lookup, ih, had, hbd]

theorem lookup_insert (a b : Nat) (v : Byte) (m : List Host.Cell) :
    lookup b (insert a v m) = if b = a then some v else lookup b m := by
  induction m with
  | nil => simp [insert, lookup]
  | cons c m ih =>
    obtain ⟨d, w⟩ := c
    simp only [insert]
    split
    · simp [lookup]
    · split
      · subst_vars
        by_cases hbd : b = d <;> simp [lookup, hbd]
      · rename_i _ had
        by_cases hbd : b = d
        · subst hbd
          simp [lookup, Ne.symm had]
        · simp [lookup, ih, hbd]

/-- A read after a write: the byte written at its address, every other address as before. -/
theorem read_write (m : List Host.Cell) (a b : Nat) (v : Byte) :
    read font (write font m a v) b = if b = a then v else read font m b := by
  unfold read write
  split
  · by_cases hba : b = a <;> simp [lookup_erase, *]
  · by_cases hba : b = a <;> simp [lookup_insert, hba]

theorem wfFrom_mono {lo lo' : Option Nat} {m : List Host.Cell} (h : wfFrom font lo m = true)
    (hlo : ∀ a, lo.all (· < a) = true → lo'.all (· < a) = true) : wfFrom font lo' m = true := by
  cases m with
  | nil => rfl
  | cons c m =>
    obtain ⟨d, w⟩ := c
    simp only [wfFrom, Bool.and_eq_true] at h ⊢
    exact ⟨⟨⟨hlo _ h.1.1.1, h.1.1.2⟩, h.1.2⟩, h.2⟩

theorem wfFrom_erase {lo : Option Nat} {m : List Host.Cell} (a : Nat) (h : wfFrom font lo m = true) :
    wfFrom font lo (erase a m) = true := by
  induction m generalizing lo with
  | nil => rfl
  | cons c m ih =>
    obtain ⟨d, w⟩ := c
    simp only [wfFrom, Bool.and_eq_true] at h
    simp only [erase]
    split
    · refine ih (wfFrom_mono h.2 fun b hb => ?_)
      have hd := h.1.1.1
      cases lo <;> simp_all
      omega
    · simp only [wfFrom, Bool.and_eq_true]
      exact ⟨h.1, ih h.2⟩

theorem wfFrom_insert {lo : Option Nat} {m : List Host.Cell} {a : Nat} {v : Byte} (h : wfFrom font lo m = true)
    (hlo : lo.all (· < a) = true) (ha : a < memSize) (hv : v ≠ initial font a) :
    wfFrom font lo (insert a v m) = true := by
  induction m generalizing lo with
  | nil => simp [insert, wfFrom, hlo, ha, hv]
  | cons c m ih =>
    obtain ⟨d, w⟩ := c
    simp only [wfFrom, Bool.and_eq_true] at h
    simp only [insert]
    split
    · simp [wfFrom, hlo, ha, hv]
      simpa [and_assoc] using h.1.1.2 |> fun h1 => And.intro ‹a < d› (And.intro (of_decide_eq_true h1) (And.intro h.1.2 h.2))
    · split
      · subst_vars
        simp [wfFrom, hlo, ha, hv, h.2]
      · simp only [wfFrom, Bool.and_eq_true]
        refine ⟨h.1, ih h.2 ?_⟩
        simp
        omega

/-- Every write to an address of the space keeps the canonical form. -/
theorem wf_write {m : List Host.Cell} {a : Nat} (v : Byte) (h : wf font m = true) (ha : a < memSize) :
    wf font (write font m a v) = true := by
  unfold write
  split
  · exact wfFrom_erase a h
  · exact wfFrom_insert h rfl ha ‹_›

theorem lookup_eq_none_of_wfFrom {lo a : Nat} {m : List Host.Cell} (h : wfFrom font (some lo) m = true) (ha : a ≤ lo) :
    lookup a m = none := by
  induction m generalizing lo with
  | nil => rfl
  | cons c m ih =>
    obtain ⟨d, w⟩ := c
    simp only [wfFrom, Option.all_some, Bool.and_eq_true, decide_eq_true_eq] at h
    have hne : a ≠ d := by omega
    simp only [lookup, hne, if_false]
    exact ih h.2 (by omega)

theorem ext_wfFrom {lo : Option Nat} {m m' : List Host.Cell} (h : wfFrom font lo m = true)
    (h' : wfFrom font lo m' = true) (hr : ∀ a, lo.all (· < a) = true → read font m a = read font m' a) : m = m' := by
  induction m generalizing lo m' with
  | nil =>
    cases m' with
    | nil => rfl
    | cons c' m' =>
      obtain ⟨d', w'⟩ := c'
      simp only [wfFrom, Bool.and_eq_true] at h'
      have := hr d' h'.1.1.1
      simp [read, lookup] at this
      simp [this] at h'
  | cons c m ih =>
    obtain ⟨d, w⟩ := c
    simp only [wfFrom, Bool.and_eq_true] at h
    cases m' with
    | nil =>
      have := hr d h.1.1.1
      simp [read, lookup] at this
      simp [this] at h
    | cons c' m' =>
      obtain ⟨d', w'⟩ := c'
      simp only [wfFrom, Bool.and_eq_true] at h'
      have e1 := hr d h.1.1.1
      have e2 := hr d' h'.1.1.1
      rcases Nat.lt_trichotomy d d' with hlt | heq | hgt
      · have hn := lookup_eq_none_of_wfFrom h'.2 (Nat.le_of_lt hlt)
        simp [read, lookup, hn, Nat.ne_of_lt hlt] at e1
        simp [e1] at h
      · subst heq
        simp [read, lookup] at e1
        subst e1
        congr 1
        refine ih h.2 h'.2 fun a ha => ?_
        simp only [Option.all_some, decide_eq_true_eq] at ha
        have hlo : lo.all (· < a) = true := by
          have hd := h.1.1.1
          cases lo <;> simp_all
          omega
        have e := hr a hlo
        simpa [read, lookup, Nat.ne_of_gt ha] using e
      · have hn := lookup_eq_none_of_wfFrom h.2 (Nat.le_of_lt hgt)
        simp [read, lookup, hn, Nat.ne_of_lt hgt] at e2
        exact absurd e2.symm (by simpa using h'.1.2)

/-- Two canonical memories that read alike everywhere are the same list. -/
theorem ext_of_wf {m m' : List Host.Cell} (h : wf font m = true) (h' : wf font m' = true)
    (hr : ∀ a, read font m a = read font m' a) : m = m' :=
  ext_wfFrom h h' fun a _ => hr a

end Memory

variable (s : State)

theorem State.readByte_writeByte (a b : Nat) (v : Byte) :
    (s.writeByte a v).readByte b = if b = a then v else s.readByte b :=
  Memory.read_write s.mem a b v

/-! ### Blocks -/

/-- Storing a block writes memory and nothing else. -/
theorem State.writeBlock_frame (base : Nat) (vs : List Byte) :
    s.writeBlock base vs = { s with mem := (s.writeBlock base vs).mem } := by
  induction vs generalizing s base with
  | nil => rfl
  | cons v vs ih =>
    rw [State.writeBlock, ih]
    rfl

/-- Reading after storing a block: the block's bytes at its addresses, every other byte as before. -/
theorem State.readByte_writeBlock (base a : Nat) (vs : List Byte) :
    (s.writeBlock base vs).readByte a = if base ≤ a then (vs[a - base]?).getD (s.readByte a) else s.readByte a := by
  induction vs generalizing s base with
  | nil => simp [State.writeBlock]
  | cons v vs ih =>
    rw [State.writeBlock, ih, State.readByte_writeByte]
    by_cases h1 : base + 1 ≤ a
    · have h2 : base ≤ a := by omega
      have h3 : a ≠ base := by omega
      have h4 : a - base = (a - (base + 1)) + 1 := by omega
      simp only [h1, h2, h3, if_true, if_false, h4, List.getElem?_cons_succ]
    · by_cases h2 : a = base
      · subst h2
        simp
      · have h3 : ¬ base ≤ a := by omega
        simp [h1, h2, h3]

/-- Outside the block, every byte reads as before. -/
theorem State.readByte_writeBlock_of_outside {base a : Nat} {vs : List Byte} (h : a < base ∨ base + vs.length ≤ a) :
    (s.writeBlock base vs).readByte a = s.readByte a := by
  rw [State.readByte_writeBlock]
  split
  · rw [List.getElem?_eq_none (by omega)]
    rfl
  · rfl

/-- A block inside the address space keeps the canonical form. -/
theorem State.wf_writeBlock {base : Nat} {vs : List Byte} (h : Memory.wf s.cfg.font s.mem = true)
    (hfit : base + vs.length ≤ memSize) : Memory.wf s.cfg.font (s.writeBlock base vs).mem = true := by
  induction vs generalizing s base with
  | nil => exact h
  | cons v vs ih =>
    simp only [List.length_cons] at hfit
    exact ih (s.writeByte base v) (Memory.wf_write v h (by omega)) (by omega)

theorem State.length_readBlock (base count : Nat) : (s.readBlock base count).length = count := by
  simp [State.readBlock]

theorem State.getElem?_readBlock (base count k : Nat) :
    (s.readBlock base count)[k]? = if k < count then some (s.readByte (base + k)) else none := by
  by_cases h : k < count <;> simp [State.readBlock, h]

@[simp] theorem State.writeBlock_cfg (base : Nat) (vs : List Byte) : (s.writeBlock base vs).cfg = s.cfg := by
  rw [State.writeBlock_frame]
@[simp] theorem State.writeBlock_V (base : Nat) (vs : List Byte) : (s.writeBlock base vs).V = s.V := by
  rw [State.writeBlock_frame]
@[simp] theorem State.writeBlock_I (base : Nat) (vs : List Byte) : (s.writeBlock base vs).I = s.I := by
  rw [State.writeBlock_frame]
@[simp] theorem State.writeBlock_pc (base : Nat) (vs : List Byte) : (s.writeBlock base vs).pc = s.pc := by
  rw [State.writeBlock_frame]
@[simp] theorem State.writeBlock_stack (base : Nat) (vs : List Byte) : (s.writeBlock base vs).stack = s.stack := by
  rw [State.writeBlock_frame]
@[simp] theorem State.writeBlock_sp (base : Nat) (vs : List Byte) : (s.writeBlock base vs).sp = s.sp := by
  rw [State.writeBlock_frame]
@[simp] theorem State.writeBlock_dt (base : Nat) (vs : List Byte) : (s.writeBlock base vs).dt = s.dt := by
  rw [State.writeBlock_frame]
@[simp] theorem State.writeBlock_st (base : Nat) (vs : List Byte) : (s.writeBlock base vs).st = s.st := by
  rw [State.writeBlock_frame]
@[simp] theorem State.writeBlock_fb (base : Nat) (vs : List Byte) : (s.writeBlock base vs).fb = s.fb := by
  rw [State.writeBlock_frame]
@[simp] theorem State.writeBlock_keys (base : Nat) (vs : List Byte) : (s.writeBlock base vs).keys = s.keys := by
  rw [State.writeBlock_frame]
@[simp] theorem State.writeBlock_run (base : Nat) (vs : List Byte) : (s.writeBlock base vs).run = s.run := by
  rw [State.writeBlock_frame]
@[simp] theorem State.writeBlock_err (base : Nat) (vs : List Byte) : (s.writeBlock base vs).err = s.err := by
  rw [State.writeBlock_frame]
@[simp] theorem State.writeBlock_dirty (base : Nat) (vs : List Byte) : (s.writeBlock base vs).dirty = s.dirty := by
  rw [State.writeBlock_frame]
@[simp] theorem State.writeBlock_waiting (base : Nat) (vs : List Byte) : (s.writeBlock base vs).waiting = s.waiting := by
  rw [State.writeBlock_frame]
@[simp] theorem State.writeBlock_randIn (base : Nat) (vs : List Byte) : (s.writeBlock base vs).randIn = s.randIn := by
  rw [State.writeBlock_frame]
@[simp] theorem State.writeBlock_randDrawn (base : Nat) (vs : List Byte) : (s.writeBlock base vs).randDrawn = s.randDrawn := by
  rw [State.writeBlock_frame]
@[simp] theorem State.writeBlock_keyIn (base : Nat) (vs : List Byte) : (s.writeBlock base vs).keyIn = s.keyIn := by
  rw [State.writeBlock_frame]
@[simp] theorem State.writeBlock_frames (base : Nat) (vs : List Byte) : (s.writeBlock base vs).frames = s.frames := by
  rw [State.writeBlock_frame]
@[simp] theorem State.readV_writeBlock (base : Nat) (vs : List Byte) (r : Reg) :
    (s.writeBlock base vs).readV r = s.readV r := by
  simp [State.readV]

end Sys2Proof.Machine
end

