-- ==== Sys2Proof/Laws/Ops.lean ====
section
/-! SUPPORT. What each shared operation can do, said once: the stack, the range check, the register lists and the block
load, the inputs. -/

namespace Sys2Proof.Machine

variable (s : State)

/-! ### The call stack (R21) -/

/-- Everything a push can do. -/
theorem State.push_cases (w : Word) :
    (s.sp.val = 16 ∧ s.push w = none) ∨
      (∃ h : s.sp.val < 16,
        s.push w = some { s with stack := s.stack.set s.sp.val w h, sp := ⟨s.sp.val + 1, by omega⟩ }) := by
  by_cases h : s.sp.val < 16
  · exact .inr ⟨h, by simp [State.push, h]⟩
  · exact .inl ⟨by omega, by simp [State.push, h]⟩

/-- Everything a pop can do. -/
theorem State.pop_cases :
    (s.sp.val = 0 ∧ s.pop = none) ∨
      (∃ h : 0 < s.sp.val,
        s.pop = some (s.stack[s.sp.val - 1], { s with sp := ⟨s.sp.val - 1, by omega⟩ })) := by
  by_cases h : 0 < s.sp.val
  · exact .inr ⟨h, by simp [State.pop, h]⟩
  · exact .inl ⟨by omega, by simp [State.pop, h]⟩

/-! ### The range check (R54, R55) -/

@[simp] theorem State.extentInRange_iff (count : Nat) :
    s.extentInRange count = true ↔ s.I.toNat + count ≤ 4096 := by
  exact decide_eq_true_iff

/-- "the lowest offending address ... is always 0x1000" for an access based on I (R55). -/
@[simp] theorem firstBadAddress_index (i : Index) : firstBadAddress i.toNat = 0x1000 := by
  have := i.isLt
  simp [firstBadAddress, memSize, Nat.max_eq_right (show i.toNat ≤ 4096 by omega)]

/-- Everything an extent-checked instruction can do: its body when the extent is in range, the fault when it is not. -/
theorem State.withExtent_eq (op : Word) (count : Nat) (body : State → Result) :
    s.withExtent op count body =
      if s.I.toNat + count ≤ 4096 then body s else .next (s.raise .addressViolation op 0x1000) := by
  by_cases h : s.I.toNat + count ≤ 4096 <;> simp [State.withExtent, State.extentInRange, memSize, h]

/-! ### Lists of registers (R170, R171) -/

theorem mem_regsUpTo {r x : Reg} : r ∈ regsUpTo x ↔ r.val ≤ x.val := by
  revert r x
  decide

theorem length_regsUpTo (x : Reg) : (regsUpTo x).length = x.val + 1 := by
  revert x
  decide

theorem getElem?_regsUpTo (x : Reg) (k : Nat) : (regsUpTo x)[k]? = if h : k ≤ x.val then some ⟨k, by omega⟩ else none := by
  by_cases h : k ≤ x.val
  · have : ∀ x : Reg, ∀ k : Reg, k.val ≤ x.val → (regsUpTo x)[k.val]? = some k := by decide
    simpa [h] using this x ⟨k, by omega⟩ h
  · have := length_regsUpTo x
    simp [h, List.getElem?_eq_none (show (regsUpTo x).length ≤ k by omega)]

/-- Loading writes registers and nothing else. -/
theorem State.foldl_writeV_frame (f : Reg → Byte) (regs : List Reg) :
    regs.foldl (fun t k => t.writeV k (f k)) s = { s with V := (regs.foldl (fun t k => t.writeV k (f k)) s).V } := by
  induction regs generalizing s with
  | nil => rfl
  | cons r regs ih =>
    rw [List.foldl_cons, ih]
    rfl

theorem State.readV_foldl_writeV (f : Reg → Byte) (regs : List Reg) (r : Reg) :
    (regs.foldl (fun t k => t.writeV k (f k)) s).readV r = if r ∈ regs then f r else s.readV r := by
  induction regs generalizing s with
  | nil => simp
  | cons q regs ih =>
    rw [List.foldl_cons, ih, State.readV_writeV]
    by_cases hr : r ∈ regs
    · simp [hr]
    · by_cases hq : r = q <;> simp [hr, hq]

theorem State.loadRegs_frame (regs : List Reg) : s.loadRegs regs = { s with V := (s.loadRegs regs).V } :=
  s.foldl_writeV_frame _ regs

/-- V0..Vx hold the bytes at I + their number, the registers above x are as before (R171). -/
theorem State.readV_loadRegs (x r : Reg) :
    (s.loadRegs (regsUpTo x)).readV r = if r.val ≤ x.val then s.readByte (s.I.toNat + r.val) else s.readV r := by
  simp [State.loadRegs, State.readV_foldl_writeV, mem_regsUpTo]

@[simp] theorem State.loadRegs_cfg (regs : List Reg) : (s.loadRegs regs).cfg = s.cfg := by
  rw [State.loadRegs_frame]
@[simp] theorem State.loadRegs_mem (regs : List Reg) : (s.loadRegs regs).mem = s.mem := by
  rw [State.loadRegs_frame]
@[simp] theorem State.loadRegs_I (regs : List Reg) : (s.loadRegs regs).I = s.I := by
  rw [State.loadRegs_frame]
@[simp] theorem State.loadRegs_pc (regs : List Reg) : (s.loadRegs regs).pc = s.pc := by
  rw [State.loadRegs_frame]
@[simp] theorem State.loadRegs_stack (regs : List Reg) : (s.loadRegs regs).stack = s.stack := by
  rw [State.loadRegs_frame]
@[simp] theorem State.loadRegs_sp (regs : List Reg) : (s.loadRegs regs).sp = s.sp := by
  rw [State.loadRegs_frame]
@[simp] theorem State.loadRegs_dt (regs : List Reg) : (s.loadRegs regs).dt = s.dt := by
  rw [State.loadRegs_frame]
@[simp] theorem State.loadRegs_st (regs : List Reg) : (s.loadRegs regs).st = s.st := by
  rw [State.loadRegs_frame]
@[simp] theorem State.loadRegs_fb (regs : List Reg) : (s.loadRegs regs).fb = s.fb := by
  rw [State.loadRegs_frame]
@[simp] theorem State.loadRegs_keys (regs : List Reg) : (s.loadRegs regs).keys = s.keys := by
  rw [State.loadRegs_frame]
@[simp] theorem State.loadRegs_run (regs : List Reg) : (s.loadRegs regs).run = s.run := by
  rw [State.loadRegs_frame]
@[simp] theorem State.loadRegs_err (regs : List Reg) : (s.loadRegs regs).err = s.err := by
  rw [State.loadRegs_frame]
@[simp] theorem State.loadRegs_dirty (regs : List Reg) : (s.loadRegs regs).dirty = s.dirty := by
  rw [State.loadRegs_frame]
@[simp] theorem State.loadRegs_waiting (regs : List Reg) : (s.loadRegs regs).waiting = s.waiting := by
  rw [State.loadRegs_frame]
@[simp] theorem State.loadRegs_randIn (regs : List Reg) : (s.loadRegs regs).randIn = s.randIn := by
  rw [State.loadRegs_frame]
@[simp] theorem State.loadRegs_randDrawn (regs : List Reg) : (s.loadRegs regs).randDrawn = s.randDrawn := by
  rw [State.loadRegs_frame]
@[simp] theorem State.loadRegs_keyIn (regs : List Reg) : (s.loadRegs regs).keyIn = s.keyIn := by
  rw [State.loadRegs_frame]
@[simp] theorem State.loadRegs_frames (regs : List Reg) : (s.loadRegs regs).frames = s.frames := by
  rw [State.loadRegs_frame]
@[simp] theorem State.readByte_loadRegs (regs : List Reg) (a : Nat) :
    (s.loadRegs regs).readByte a = s.readByte a := by
  simp [State.readByte]

/-- The k-th stored register of Fx55 (R170). -/
theorem State.getElem?_storedRegs (x : Reg) (k : Nat) :
    ((regsUpTo x).map s.readV)[k]? = if h : k ≤ x.val then some (s.readV ⟨k, by omega⟩) else none := by
  by_cases h : k ≤ x.val <;> simp [getElem?_regsUpTo, h]

/-- The byte Vk goes to I + k for k in 0..x, every other byte is as before (R170). -/
theorem State.readByte_storeRegs (x : Reg) (a : Nat) :
    (s.writeBlock s.I.toNat ((regsUpTo x).map s.readV)).readByte a =
      if h : s.I.toNat ≤ a ∧ a - s.I.toNat ≤ x.val then s.readV ⟨a - s.I.toNat, by omega⟩ else s.readByte a := by
  rw [State.readByte_writeBlock, State.getElem?_storedRegs]
  by_cases h1 : s.I.toNat ≤ a
  · by_cases h2 : a - s.I.toNat ≤ x.val <;> simp [h1, h2]
  · simp [h1]

@[simp] theorem length_decimalDigits (v : Byte) : (decimalDigits v).length = 3 := rfl

end Sys2Proof.Machine
end

