-- ==== Sys2Proof/Laws/Cycle.lean ====
section
/-! SUPPORT. The step (40_cycle.md R81): everything fetch, decode, the end of a step and a step can do. -/

namespace Sys2Proof.Machine

variable {s t : State}

/-- Everything fetch can do (R82). -/
theorem State.fetch_cases (s : State) :
    (s.pc.toNat < 0xFFF ∧ s.fetch = .ok (wordOfBytes (s.readByte s.pc.toNat) (s.readByte (s.pc.toNat + 1)))) ∨
      (0xFFF ≤ s.pc.toNat ∧ s.fetch = .error (firstBadAddress s.pc.toNat)) := by
  by_cases h : s.pc.toNat + 1 < memSize
  · exact .inl ⟨by simp only [memSize] at h; omega, by simp [State.fetch, h]⟩
  · exact .inr ⟨by simp only [memSize] at h; omega, by simp [State.fetch, h]⟩

/-- Everything fetch and decode can do together (R82, R83). -/
theorem State.fetchDecode_cases (s : State) :
    (∃ bad, s.fetch = .error bad ∧ s.fetchDecode = .error (s.raise .addressViolation 0 bad)) ∨
      (∃ op, s.fetch = .ok op ∧
        ((∃ e, decodeWord op = .error e ∧ s.fetchDecode = .error (s.raise .malformedOpcode op op)) ∨
          ∃ i, decodeWord op = .ok i ∧ s.fetchDecode = .ok i)) := by
  unfold State.fetchDecode
  cases hf : s.fetch with
  | error bad => exact .inl ⟨bad, rfl, rfl⟩
  | ok op =>
    refine .inr ⟨op, rfl, ?_⟩
    cases hd : decodeWord op with
    | error e => exact .inl ⟨e, rfl, by simp [hd]⟩
    | ok i => exact .inr ⟨i, rfl, by simp [hd]⟩

@[simp] theorem State.fetch_beginStep (s : State) : s.beginStep.fetch = s.fetch := rfl

/-- What stands at pc does not depend on dirty or on the wait. -/
theorem State.fetchDecode_beginStep_ok (s : State) (i : Instr) :
    s.beginStep.fetchDecode = .ok i ↔ s.fetchDecode = .ok i := by
  simp only [State.fetchDecode, State.fetch_beginStep]
  cases s.fetch with
  | error bad => simp
  | ok op => cases hd : decodeWord op <;> simp [hd]

/-- It depends on pc, memory and the parameters alone. -/
theorem State.fetchDecode_ok_congr {s t : State} (hpc : s.pc = t.pc) (hmem : s.mem = t.mem) (hcfg : s.cfg = t.cfg)
    (i : Instr) : s.fetchDecode = .ok i ↔ t.fetchDecode = .ok i := by
  have hf : s.fetch = t.fetch := by simp [State.fetch, State.readByte, hpc, hmem, hcfg]
  simp only [State.fetchDecode, hf]
  cases t.fetch with
  | error bad => simp
  | ok op => cases hd : decodeWord op <;> simp [hd]

/-- Everything the end of a step can do (R85, R86, R89, R154). -/
theorem finishStep_next {r : Result} (h : finishStep r = .next t) :
    ∃ u, r = .next u ∧
      ((u.run = .halted ∨ u.waiting = true) ∧ t = u ∨
        (u.run = .running ∧ u.waiting = false) ∧ t = u.tick.notify) := by
  cases r with
  | next u =>
    refine ⟨u, rfl, ?_⟩
    simp only [finishStep] at h
    split at h
    · exact .inl ⟨‹_›, by simpa using h.symm⟩
    · rename_i hc
      refine .inr ⟨⟨?_, ?_⟩, by simpa using h.symm⟩
      · cases hr : u.run <;> simp_all
      · simp_all
  | fault r => simp [finishStep] at h
  | refused r => simp [finishStep] at h

/-- Everything a step can do: a fault at fetch or decode, an instruction that faults or waits, an instruction that
completes, is ticked and notified. -/
theorem step_next (h : step s = .next t) :
    s.run = .running ∧
      ((s.beginStep.fetchDecode = .error t) ∨
        ∃ i u, s.beginStep.fetchDecode = .ok i ∧ exec i s.beginStep = .next u ∧
          ((u.run = .halted ∨ u.waiting = true) ∧ t = u ∨
            (u.run = .running ∧ u.waiting = false) ∧ t = u.tick.notify)) := by
  unfold step at h
  split at h
  · simp at h
  · refine ⟨‹_›, ?_⟩
    split at h
    · simp only [Host.Outcome.next.injEq] at h
      exact .inl (h ▸ ‹_›)
    · obtain ⟨u, hu, hc⟩ := finishStep_next h
      exact .inr ⟨_, u, ‹_›, hu, hc⟩

/-- A running machine that decodes an instruction runs it. -/
theorem step_of_fetchDecode {i : Instr} (hr : s.run = .running) (hd : s.beginStep.fetchDecode = .ok i) :
    step s = finishStep (exec i s.beginStep) := by
  simp [step, hr, hd]

theorem toNat_tickTimer (v : Byte) : (tickTimer v).toNat = v.toNat - 1 := by
  unfold tickTimer
  split
  · have := v.isLt
    rw [BitVec.toNat_sub_of_le (by simp [BitVec.le_def]; omega)]
    rfl
  · omega

end Sys2Proof.Machine
end

