-- ==== Sys2Proof/Laws/Display.lean ====
section
/-! SUPPORT. The framebuffer: what toggling a list of pixels does (45_display.md R137, R140) and which pixels a sprite
covers (R138, R139). -/

namespace Sys2Proof.Machine

namespace Framebuffer

/-- Toggling a position inverts that pixel and no other; a position off the grid inverts none. -/
theorem pixel_togglePixel (fb : Framebuffer) (p : Nat × Nat) (r : Fin 32) (c : Fin 64) :
    (togglePixel fb p).1[r][c] = (fb[r][c] ^^ decide (p = (r.val, c.val))) := by
  obtain ⟨py, px⟩ := p
  unfold togglePixel
  by_cases h : py < 32 ∧ px < 64
  · simp only [h, and_self, dif_pos, Fin.getElem_fin]
    by_cases hy : py = r.val
    · subst hy
      by_cases hx : px = c.val
      · subst hx
        simp
      · simp [hx]
    · simp [hy]
  · have : (py, px) ≠ (r.val, c.val) := by
      rintro ⟨⟩
      exact h ⟨r.isLt, c.isLt⟩
    simp [h, this]

/-- It reports a hit exactly when the pixel was on. -/
theorem hit_togglePixel (fb : Framebuffer) (p : Nat × Nat) :
    (togglePixel fb p).2 = true ↔ ∃ r : Fin 32, ∃ c : Fin 64, p = (r.val, c.val) ∧ fb[r][c] = true := by
  obtain ⟨py, px⟩ := p
  unfold togglePixel
  by_cases h : py < 32 ∧ px < 64
  · simp only [h, and_self, dif_pos]
    constructor
    · exact fun hp => ⟨⟨py, h.1⟩, ⟨px, h.2⟩, rfl, hp⟩
    · rintro ⟨r, c, ⟨⟩, hp⟩
      exact hp
  · simp only [h, dif_neg, not_false_eq_true]
    constructor
    · exact fun hp => absurd hp (by simp)
    · rintro ⟨r, c, ⟨⟩, -⟩
      exact absurd ⟨r.isLt, c.isLt⟩ h

/-- Toggling distinct positions inverts exactly the pixels among them. -/
theorem pixel_toggleAll (ps : List (Nat × Nat)) (hps : ps.Nodup) (fb : Framebuffer) (collision : Bool) (r : Fin 32)
    (c : Fin 64) : (toggleAll fb collision ps).1[r][c] = (fb[r][c] ^^ decide ((r.val, c.val) ∈ ps)) := by
  induction ps generalizing fb collision with
  | nil => simp [toggleAll]
  | cons p ps ih =>
    rw [List.nodup_cons] at hps
    rw [toggleAll, ih hps.2, pixel_togglePixel]
    by_cases h : p = (r.val, c.val)
    · subst h
      simp [hps.1]
    · simp [h, Ne.symm h]

/-- They collide exactly when one of them was on: "set before this instruction" (R140). -/
theorem collision_toggleAll (ps : List (Nat × Nat)) (hps : ps.Nodup) (fb : Framebuffer) (collision : Bool) :
    (toggleAll fb collision ps).2 = true ↔
      collision = true ∨ ∃ r : Fin 32, ∃ c : Fin 64, (r.val, c.val) ∈ ps ∧ fb[r][c] = true := by
  induction ps generalizing fb collision with
  | nil => simp [toggleAll]
  | cons p ps ih =>
    rw [List.nodup_cons] at hps
    rw [toggleAll, ih hps.2, Bool.or_eq_true, hit_togglePixel]
    have hsame : ∀ (r : Fin 32) (c : Fin 64), (r.val, c.val) ∈ ps → (togglePixel fb p).1[r][c] = fb[r][c] := by
      intro r c hm
      rw [pixel_togglePixel]
      have : p ≠ (r.val, c.val) := fun e => hps.1 (e ▸ hm)
      simp [this]
    constructor
    · rintro ((hc | ⟨r, c, rfl, h⟩) | ⟨r, c, hm, h⟩)
      · exact .inl hc
      · exact .inr ⟨r, c, by simp, h⟩
      · exact .inr ⟨r, c, by simp [hm], by rwa [hsame r c hm] at h⟩
    · rintro (hc | ⟨r, c, hm, h⟩)
      · exact .inl (.inl hc)
      · rcases List.mem_cons.mp hm with rfl | hm
        · exact .inl (.inr ⟨r, c, rfl, h⟩)
        · exact .inr ⟨r, c, hm, by rwa [hsame r c hm]⟩

/-- Two framebuffers with the same pixels are equal. -/
theorem ext_pixel {fb fb' : Framebuffer} (h : ∀ (r : Fin 32) (c : Fin 64), fb[r][c] = fb'[r][c]) : fb = fb' := by
  apply Vector.ext
  intro i hi
  apply Vector.ext
  intro j hj
  exact h ⟨i, hi⟩ ⟨j, hj⟩

@[simp] theorem pixel_clear (r : Fin 32) (c : Fin 64) : clear[r][c] = false := by
  simp [clear]

end Framebuffer

/-! ### The positions of a sprite -/

theorem mem_rowColumns {x0 px : Nat} {row : Byte} :
    px ∈ rowColumns x0 row ↔ x0 ≤ px ∧ px < x0 + 8 ∧ row.getLsbD (7 - (px - x0)) = true := by
  simp only [rowColumns, List.mem_map, List.mem_filter, List.mem_range]
  constructor
  · rintro ⟨c, ⟨hc, hb⟩, rfl⟩
    exact ⟨by omega, by omega, by rwa [Nat.add_sub_cancel_left]⟩
  · rintro ⟨h1, h2, hb⟩
    exact ⟨px - x0, ⟨by omega, hb⟩, by omega⟩

theorem nodup_rowColumns (x0 : Nat) (row : Byte) : (rowColumns x0 row).Nodup :=
  (List.nodup_range.filter _).map fun _ _ h => Nat.add_left_cancel h

theorem mem_spritePositions {x0 y0 py px : Nat} {rows : List Byte} :
    (py, px) ∈ spritePositions x0 y0 rows ↔ y0 ≤ py ∧ ∃ row, rows[py - y0]? = some row ∧ px ∈ rowColumns x0 row := by
  induction rows generalizing y0 with
  | nil => simp [spritePositions]
  | cons row rows ih =>
    simp only [spritePositions, List.mem_append, List.mem_map, Prod.mk.injEq, ih]
    constructor
    · rintro (⟨c, hc, rfl, rfl⟩ | ⟨hle, r, hr, hm⟩)
      · exact ⟨Nat.le_refl _, row, by simp, hc⟩
      · have : py - y0 = (py - (y0 + 1)) + 1 := by omega
        exact ⟨by omega, r, by rw [this, List.getElem?_cons_succ]; exact hr, hm⟩
    · rintro ⟨hle, r, hr, hm⟩
      by_cases h : py = y0
      · subst h
        simp only [Nat.sub_self, List.getElem?_cons_zero, Option.some.injEq] at hr
        subst hr
        exact .inl ⟨px, hm, rfl, rfl⟩
      · have : py - y0 = (py - (y0 + 1)) + 1 := by omega
        rw [this, List.getElem?_cons_succ] at hr
        exact .inr ⟨by omega, r, hr, hm⟩

/-- "No pixel is touched twice by one Dxyn" (R139). -/
theorem nodup_spritePositions (x0 y0 : Nat) (rows : List Byte) : (spritePositions x0 y0 rows).Nodup := by
  induction rows generalizing y0 with
  | nil => simp [spritePositions]
  | cons row rows ih =>
    rw [spritePositions, List.nodup_append]
    refine ⟨(nodup_rowColumns x0 row).map fun _ _ h => (Prod.mk.injEq ..).mp h |>.2, ih _, ?_⟩
    rintro ⟨a, b⟩ ha ⟨c, d⟩ hc ⟨⟩
    simp only [List.mem_map, Prod.mk.injEq] at ha
    obtain ⟨_, _, rfl, _⟩ := ha
    have := (mem_spritePositions.mp hc).1
    omega

/-- The positions DRW x, y, n toggles are those where its sprite has a 1 bit. -/
theorem mem_spritePositions_iff_spriteBit (s : State) (x y : Reg) (n row col : Nat) :
    (row, col) ∈ spritePositions (s.readV x).toNat (s.readV y).toNat (s.readBlock s.I.toNat n) ↔
      s.spriteBit x y n row col = true := by
  rw [mem_spritePositions]
  simp only [State.getElem?_readBlock, mem_rowColumns, State.spriteBit, Bool.and_eq_true, decide_eq_true_eq]
  constructor
  · rintro ⟨h1, b, hb, h2, h3, h4⟩
    split at hb
    · cases hb
      exact ⟨⟨h1, by omega, h2, h3⟩, h4⟩
    · cases hb
  · rintro ⟨⟨h1, h2, h3, h4⟩, h5⟩
    have : row - (s.readV y).toNat < n := by omega
    exact ⟨h1, _, by rw [if_pos this], h3, h4, h5⟩

/-- Everything the sprite draw does to the framebuffer: each pixel is XORed with the sprite's bit for it. -/
theorem State.pixel_drawSprite (s : State) (x y : Reg) (n : Nat) (r : Fin 32) (c : Fin 64) :
    (s.drawSprite x y n).fb[r][c] = (s.fb[r][c] ^^ s.spriteBit x y n r c) := by
  have h := Framebuffer.pixel_toggleAll _
    (nodup_spritePositions (s.readV x).toNat (s.readV y).toNat (s.readBlock s.I.toNat n)) s.fb false r c
  simp only [mem_spritePositions_iff_spriteBit, Bool.decide_eq_true] at h
  exact h

/-- And to the registers: VF is the collision flag, the others are as before. -/
theorem State.readV_drawSprite (s : State) (x y : Reg) (n : Nat) (r : Reg) [Decidable (s.collides x y n)] :
    (s.drawSprite x y n).readV r = if r = Reg.vf then Byte.ofFlag (decide (s.collides x y n)) else s.readV r := by
  have h := Framebuffer.collision_toggleAll _
    (nodup_spritePositions (s.readV x).toNat (s.readV y).toNat (s.readBlock s.I.toNat n)) s.fb false
  simp only [mem_spritePositions_iff_spriteBit, Bool.false_eq_true, false_or] at h
  have hc : (Framebuffer.toggleAll s.fb false
      (spritePositions (s.readV x).toNat (s.readV y).toNat (s.readBlock s.I.toNat n))).2 =
      decide (s.collides x y n) := by
    rw [Bool.eq_iff_iff, h, decide_eq_true_iff]
    rfl
  simp only [State.drawSprite, State.readV_advance, State.readV_markDirty, State.readV_writeFlag, State.readV_setFb, hc]

/-- And to everything else: pc + 2, dirty, nothing more. -/
theorem State.drawSprite_frame (s : State) (x y : Reg) (n : Nat) :
    s.drawSprite x y n =
      { s with V := (s.drawSprite x y n).V, fb := (s.drawSprite x y n).fb, dirty := true, pc := s.pc + 2 } :=
  rfl

end Sys2Proof.Machine
end

