-- ==== Sys2Proof/Laws/Flags.lean ====
section
/-! SUPPORT. The results and flags as numbers (44_alu.md R130). -/

namespace Sys2Proof.Machine

theorem toNat_addResult (a b : Byte) : (addResult a b).toNat = (a.toNat + b.toNat) % 256 := by
  simp [addResult]

theorem toNat_subResult (a b : Byte) : (subResult a b).toNat = (a.toNat + 256 - b.toNat) % 256 := by
  simp [subResult]

/-- "= a - b if a >= b, else a - b + 256" (R126). -/
theorem toNat_subResult_cases (a b : Byte) :
    (subResult a b).toNat = if a.toNat ≥ b.toNat then a.toNat - b.toNat else a.toNat + 256 - b.toNat := by
  have := a.isLt
  have := b.isLt
  rw [toNat_subResult]
  split <;> omega

theorem toNat_shrResult (s : Byte) : (shrResult s).toNat = s.toNat / 2 := by
  simp [shrResult, Nat.shiftRight_eq_div_pow]

theorem toNat_shlResult (s : Byte) : (shlResult s).toNat = 2 * s.toNat % 256 := by
  simp [shlResult, Nat.shiftLeft_eq, Nat.mul_comm]

/-- The bit shifted out to the right is the remainder modulo 2. -/
theorem shrOut_iff (s : Byte) : shrOut s = true ↔ s.toNat % 2 = 1 := by
  simp [shrOut, BitVec.getLsbD, Nat.testBit_zero]

/-- The bit shifted out to the left says that the source is at least 128. -/
theorem shlOut_iff (s : Byte) : shlOut s = true ↔ s.toNat ≥ 128 := by
  have := s.isLt
  simp only [shlOut, BitVec.getLsbD, Nat.testBit_eq_decide_div_mod_eq, decide_eq_true_eq]
  omega

theorem toNat_indexAddResult (i : Index) (a : Byte) : (indexAddResult i a).toNat = (i.toNat + a.toNat) % 4096 := by
  simp [indexAddResult]

theorem toNat_glyphAddress (v : Byte) : (glyphAddress v).toNat = 5 * v.toNat := by
  have := v.isLt
  simp [glyphAddress]
  omega

theorem toNat_offsetTarget (nnn : Index) (v0 : Byte) : (offsetTarget nnn v0).toNat = nnn.toNat + v0.toNat := by
  have := nnn.isLt
  have := v0.isLt
  simp [offsetTarget]
  omega

theorem toNat_tableAddress (nnn : Index) : (nnn.setWidth 16).toNat = nnn.toNat := by
  have := nnn.isLt
  simp
  omega

end Sys2Proof.Machine
end

