-- ==== Sys2Proof/Laws/PerInstr.lean ====
section
/-! SUPPORT. Statements about every instruction as syntax, one lemma per constructor (LAWS.json). TableRow: the word of an
instruction carries exactly the fixed bits of its row in the opcode table, `op and mask = match` (30_encoding.md R73). -/

namespace Sys2Proof

/-! ### The masks of R73 as arithmetic -/

theorem toNat_and_F000 (op : Word) : (op &&& 0xF000#16).toNat = op.toNat / 4096 * 4096 := by
  have h : op &&& 0xF000#16 = (op >>> 12) <<< 12 := by
    apply BitVec.eq_of_getLsbD_eq
    intro i hi
    interval_cases i <;> simp
  have := op.isLt
  rw [h]
  simp [Nat.shiftLeft_eq, Nat.shiftRight_eq_div_pow]
  omega

/-- A mask that keeps the top nibble and the low k bits, k at most 12. -/
theorem toNat_and_top_low (op mask : Word) (k : Nat) (hk : k ≤ 12)
    (hmask : op &&& mask = (op &&& 0xF000#16) ||| (op &&& BitVec.ofNat 16 (2 ^ k - 1))) :
    (op &&& mask).toNat = op.toNat / 4096 * 4096 + op.toNat % 2 ^ k := by
  have hp : 2 ^ k ≤ 2 ^ 12 := Nat.pow_le_pow_right (by omega) hk
  have hpos : 0 < 2 ^ k := Nat.two_pow_pos k
  have hlow : (op &&& BitVec.ofNat 16 (2 ^ k - 1)).toNat = op.toNat % 2 ^ k := by
    rw [BitVec.toNat_and, BitVec.toNat_ofNat, Nat.mod_eq_of_lt (show 2 ^ k - 1 < 2 ^ 16 by omega)]
    exact Nat.and_two_pow_sub_one_eq_mod op.toNat k
  have hlt : op.toNat % 2 ^ k < 2 ^ 12 := Nat.lt_of_lt_of_le (Nat.mod_lt _ hpos) hp
  have hor := Nat.shiftLeft_add_eq_or_of_lt hlt (op.toNat / 4096)
  rw [Nat.shiftLeft_eq] at hor
  rw [hmask, BitVec.toNat_or, toNat_and_F000, hlow]
  exact hor.symm

theorem toNat_and_F00F (op : Word) : (op &&& 0xF00F#16).toNat = op.toNat / 4096 * 4096 + op.toNat % 16 :=
  toNat_and_top_low op 0xF00F#16 4 (by omega) (by rw [← BitVec.and_or_distrib_left]; rfl)

theorem toNat_and_F0FF (op : Word) : (op &&& 0xF0FF#16).toNat = op.toNat / 4096 * 4096 + op.toNat % 256 :=
  toNat_and_top_low op 0xF0FF#16 8 (by omega) (by rw [← BitVec.and_or_distrib_left]; rfl)

namespace Laws.TableRow

/-- The word of the instruction has its row's fixed bits. -/
def Statement (i : Instr) : Prop := encode i &&& tableMask i = tableMatch i

theorem packNibbles_F000 (t : BitVec 4) (x y : Reg) (n : BitVec 4) :
    packNibbles t x y n &&& 0xF000#16 = BitVec.ofNat 16 (t.toNat * 4096) := by
  apply BitVec.eq_of_toNat_eq
  rw [toNat_and_F000, toNat_packNibbles, BitVec.toNat_ofNat]
  omega

theorem packNibbles_F00F (t : BitVec 4) (x y : Reg) (n : BitVec 4) :
    packNibbles t x y n &&& 0xF00F#16 = BitVec.ofNat 16 (t.toNat * 4096 + n.toNat) := by
  apply BitVec.eq_of_toNat_eq
  rw [toNat_and_F00F, toNat_packNibbles, BitVec.toNat_ofNat]
  omega

theorem packByte_F000 (t : BitVec 4) (x : Reg) (kk : Byte) :
    packByte t x kk &&& 0xF000#16 = BitVec.ofNat 16 (t.toNat * 4096) := by
  apply BitVec.eq_of_toNat_eq
  rw [toNat_and_F000, toNat_packByte, BitVec.toNat_ofNat]
  omega

theorem packByte_F0FF (t : BitVec 4) (x : Reg) (kk : Byte) :
    packByte t x kk &&& 0xF0FF#16 = BitVec.ofNat 16 (t.toNat * 4096 + kk.toNat) := by
  apply BitVec.eq_of_toNat_eq
  rw [toNat_and_F0FF, toNat_packByte, BitVec.toNat_ofNat]
  omega

theorem packIndex_F000 (t : BitVec 4) (nnn : Index) :
    packIndex t nnn &&& 0xF000#16 = BitVec.ofNat 16 (t.toNat * 4096) := by
  apply BitVec.eq_of_toNat_eq
  rw [toNat_and_F000, toNat_packIndex, BitVec.toNat_ofNat]
  omega

theorem cls : Statement .cls := by unfold Statement; decide
theorem ret : Statement .ret := by unfold Statement; decide
theorem sys (nnn : Index) : Statement (.sys nnn) := packIndex_F000 0x0 nnn
theorem jp (nnn : Index) : Statement (.jp nnn) := packIndex_F000 0x1 nnn
theorem call (nnn : Index) : Statement (.call nnn) := packIndex_F000 0x2 nnn
theorem seImm (x : Reg) (kk : Byte) : Statement (.seImm x kk) := packByte_F000 0x3 x kk
theorem sneImm (x : Reg) (kk : Byte) : Statement (.sneImm x kk) := packByte_F000 0x4 x kk
theorem seReg (x y : Reg) (i : BitVec 4) : Statement (.seReg x y i) := packNibbles_F000 0x5 x y i
theorem ldImm (x : Reg) (kk : Byte) : Statement (.ldImm x kk) := packByte_F000 0x6 x kk
theorem addImm (x : Reg) (kk : Byte) : Statement (.addImm x kk) := packByte_F000 0x7 x kk
theorem ldReg (x y : Reg) : Statement (.ldReg x y) := packNibbles_F00F 0x8 x y 0x0
theorem orReg (x y : Reg) : Statement (.orReg x y) := packNibbles_F00F 0x8 x y 0x1
theorem andReg (x y : Reg) : Statement (.andReg x y) := packNibbles_F00F 0x8 x y 0x2
theorem xorReg (x y : Reg) : Statement (.xorReg x y) := packNibbles_F00F 0x8 x y 0x3
theorem addReg (x y : Reg) : Statement (.addReg x y) := packNibbles_F00F 0x8 x y 0x4
theorem subReg (x y : Reg) : Statement (.subReg x y) := packNibbles_F00F 0x8 x y 0x5
theorem shr (x y : Reg) : Statement (.shr x y) := packNibbles_F00F 0x8 x y 0x6
theorem subnReg (x y : Reg) : Statement (.subnReg x y) := packNibbles_F00F 0x8 x y 0x7
theorem shl (x y : Reg) : Statement (.shl x y) := packNibbles_F00F 0x8 x y 0xE
theorem sneReg (x y : Reg) (i : BitVec 4) : Statement (.sneReg x y i) := packNibbles_F000 0x9 x y i
theorem ldI (nnn : Index) : Statement (.ldI nnn) := packIndex_F000 0xA nnn
theorem jpV0 (nnn : Index) : Statement (.jpV0 nnn) := packIndex_F000 0xB nnn
theorem rnd (x : Reg) (kk : Byte) : Statement (.rnd x kk) := packByte_F000 0xC x kk
theorem drw (x y : Reg) (n : Fin 16) : Statement (.drw x y n) := packNibbles_F000 0xD x y _
theorem skp (x : Reg) : Statement (.skp x) := packByte_F0FF 0xE x 0x9E
theorem sknp (x : Reg) : Statement (.sknp x) := packByte_F0FF 0xE x 0xA1
theorem ldVxDt (x : Reg) : Statement (.ldVxDt x) := packByte_F0FF 0xF x 0x07
theorem ldVxK (x : Reg) : Statement (.ldVxK x) := packByte_F0FF 0xF x 0x0A
theorem ldDtVx (x : Reg) : Statement (.ldDtVx x) := packByte_F0FF 0xF x 0x15
theorem ldStVx (x : Reg) : Statement (.ldStVx x) := packByte_F0FF 0xF x 0x18
theorem addI (x : Reg) : Statement (.addI x) := packByte_F0FF 0xF x 0x1E
theorem ldF (x : Reg) : Statement (.ldF x) := packByte_F0FF 0xF x 0x29
theorem ldB (x : Reg) : Statement (.ldB x) := packByte_F0FF 0xF x 0x33
theorem ldMemVx (x : Reg) : Statement (.ldMemVx x) := packByte_F0FF 0xF x 0x55
theorem ldVxMem (x : Reg) : Statement (.ldVxMem x) := packByte_F0FF 0xF x 0x65

end Laws.TableRow

end Sys2Proof
end

