-- ==== Sys2Proof/Tests/Slice0.lean ====
section
/-! SUPPORT. The model's own tests: the checks of WellFormed, a word of every constructor written out from 30_encoding.md
R73, one or two single steps per instruction with the results of 95_test_vectors.md, and a witness for the hypotheses of
every statement that has some. -/

namespace Sys2Proof.Tests

open Sys2Proof Sys2Proof.Machine

/-! ### Helpers -/

/-- The answer is a next state that passes the check. -/
def answers (r : Result) (check : State → Bool) : Bool :=
  match r with
  | .next t => check t
  | .fault _ => false
  | .refused _ => false

theorem exists_next {r : Result} {P : State → Prop} [DecidablePred P] (h : answers r (fun t => decide (P t)) = true) :
    ∃ t, r = .next t ∧ P t := by
  cases r with
  | next t => exact ⟨t, rfl, of_decide_eq_true h⟩
  | fault f => exact absurd h (by simp [answers])
  | refused f => exact absurd h (by simp [answers])

/-- One step of `s` with the word `w` at pc (section 0 of 95_test_vectors.md). -/
def stepAt (s : State) (w : Nat) (check : State → Bool) : Bool := answers (step (s.withFetchWord 16 w)) check

/-- The step ended in this fault. -/
def faulted (kind : ErrKind) (pc opcode info : Word) (t : State) : Bool :=
  t.run == .halted && t.err == { kind := kind, pc := pc, opcode := opcode, info := info }

/-- The reset state with two registers set. -/
def withRegs (x : Reg) (a : Byte) (y : Reg) (b : Byte) : State := (State.reset.writeV x a).writeV y b

/-- The reset state with I set. -/
def withIndex (i : Index) : State := State.reset.setI i

/-- The reset state at another pc. -/
def atPc (pc : Word) : State := State.reset.setPc pc

/-- The reset state with a full stack. -/
def fullStack : State := { State.reset with sp := 16, stack := Vector.replicate 16 0x0111 }

/-- The reset state with one return address on the stack. -/
def oneCall : State := { State.reset with sp := 1, stack := State.reset.stack.set 0 0x0345 }

/-- The reset state of a machine whose SYS_POLICY is FAULT. -/
def sysFaults : State := State.resetWith { defaultConfig with sysPolicy := .fault }

/-- The same registers in a machine whose SHIFT_SOURCE is VY. -/
def shiftsVy (s : State) : State := { s with cfg := { s.cfg with shiftSource := .vy } }

/-- The reset state with one key pressed and V1 set. -/
def withKey (k : Fin 16) (v1 : Byte) : State := { State.reset.writeV 1 v1 with keys := State.reset.keys.set k true }

/-! ### WellFormed: SYS does not stand for the words of CLS and RET (30_encoding.md R69) -/

theorem test_sys_00E0_is_ill_formed : (Instr.sys 0x0E0).wellFormed = false := by decide
theorem test_sys_00EE_is_ill_formed : (Instr.sys 0x0EE).wellFormed = false := by decide
theorem test_sys_00E1_is_well_formed : (Instr.sys 0x0E1).wellFormed = true := by decide

/-! ### Decode: a word of every constructor (V-DEC-1 to V-DEC-28) -/

theorem test_decode_family_0 :
    decodeWord 0x00E0 = .ok .cls ∧ decodeWord 0x00EE = .ok .ret ∧ decodeWord 0x0000 = .ok (.sys 0x000) ∧
    decodeWord 0x00E1 = .ok (.sys 0x0E1) ∧ decodeWord 0x01E0 = .ok (.sys 0x1E0) ∧
    decodeWord 0x0FFF = .ok (.sys 0xFFF) := by decide

theorem test_decode_families_1_to_7 :
    decodeWord 0x1ABC = .ok (.jp 0xABC) ∧ decodeWord 0x2ABC = .ok (.call 0xABC) ∧
    decodeWord 0x3A42 = .ok (.seImm 0xA 0x42) ∧ decodeWord 0x4A42 = .ok (.sneImm 0xA 0x42) ∧
    decodeWord 0x5120 = .ok (.seReg 1 2 0) ∧ decodeWord 0x5127 = .ok (.seReg 1 2 7) ∧
    decodeWord 0x6AFF = .ok (.ldImm 0xA 0xFF) ∧ decodeWord 0x7A01 = .ok (.addImm 0xA 0x01) := by decide

theorem test_decode_family_8 :
    decodeWord 0x8120 = .ok (.ldReg 1 2) ∧ decodeWord 0x8121 = .ok (.orReg 1 2) ∧
    decodeWord 0x8122 = .ok (.andReg 1 2) ∧ decodeWord 0x8123 = .ok (.xorReg 1 2) ∧
    decodeWord 0x8124 = .ok (.addReg 1 2) ∧ decodeWord 0x8125 = .ok (.subReg 1 2) ∧
    decodeWord 0x8126 = .ok (.shr 1 2) ∧ decodeWord 0x8127 = .ok (.subnReg 1 2) ∧
    decodeWord 0x812E = .ok (.shl 1 2) := by decide

theorem test_decode_families_9_to_D :
    decodeWord 0x9120 = .ok (.sneReg 1 2 0) ∧ decodeWord 0x912F = .ok (.sneReg 1 2 0xF) ∧
    decodeWord 0xAFFF = .ok (.ldI 0xFFF) ∧ decodeWord 0xB300 = .ok (.jpV0 0x300) ∧
    decodeWord 0xC30F = .ok (.rnd 3 0x0F) ∧ decodeWord 0xD125 = .ok (.drw 1 2 5) := by decide

theorem test_decode_families_E_and_F :
    decodeWord 0xE19E = .ok (.skp 1) ∧ decodeWord 0xE1A1 = .ok (.sknp 1) ∧ decodeWord 0xF207 = .ok (.ldVxDt 2) ∧
    decodeWord 0xF20A = .ok (.ldVxK 2) ∧ decodeWord 0xF215 = .ok (.ldDtVx 2) ∧ decodeWord 0xF218 = .ok (.ldStVx 2) ∧
    decodeWord 0xF21E = .ok (.addI 2) ∧ decodeWord 0xF229 = .ok (.ldF 2) ∧ decodeWord 0xF233 = .ok (.ldB 2) ∧
    decodeWord 0xF255 = .ok (.ldMemVx 2) ∧ decodeWord 0xF265 = .ok (.ldVxMem 2) := by decide

theorem test_decode_refuses_illegal_words :
    ([0x8128, 0x8129, 0x812A, 0x812B, 0x812C, 0x812D, 0x812F, 0xE100, 0xE19F, 0xE1A0, 0xE1FF, 0xF000, 0xF008, 0xF00B,
      0xF016, 0xF01F, 0xF030, 0xF056, 0xF066, 0xF075, 0xF085, 0xF0FF] : List Word).all
      (fun w => decide (decodeWord w = .error (.malformedOpcode w))) = true := by decide

theorem test_decode_takes_two_bytes_high_byte_first :
    decode [0x2A, 0xBC, 0x00] = .ok (.call 0xABC, [0x00]) ∧ decode [0x2A] = .error .truncated := by decide

theorem test_decode_table_word : decodeTableWord 16 0xD125 = some (.drw 1 2 5) ∧ decodeTableWord 16 0x8128 = none := by
  decide

/-! ### Flow (V-FLW) -/

/-- V-FLW-1. -/
theorem test_sys_nop : stepAt State.reset 0x0123 (fun t => t.pc == 0x0202 && t.run == .running) = true := by decide
/-- V-FLW-2. -/
theorem test_sys_fault : stepAt sysFaults 0x0123 (faulted .malformedOpcode 0x0200 0x0123 0x0123) = true := by decide
/-- V-FLW-5. -/
theorem test_jp : stepAt State.reset 0x1ABC (fun t => t.pc == 0x0ABC && t.frames == [false]) = true := by decide
/-- V-FLW-11. -/
theorem test_call_last_slot :
    stepAt { fullStack with sp := 15 } 0x2ABC
      (fun t => t.pc == 0x0ABC && t.sp == 16 && t.stack[15] == 0x0200 && t.stack[14] == 0x0111) = true := by decide
/-- V-FLW-12. -/
theorem test_call_overflow :
    stepAt fullStack 0x2ABC (fun t => faulted .stackOverflow 0x0200 0x2ABC 0x0010 t && t.sp == 16 && t.pc == 0x0200) =
      true := by decide
/-- V-FLW-14. -/
theorem test_ret : stepAt oneCall 0x00EE (fun t => t.pc == 0x0347 && t.sp == 0 && t.stack[0] == 0x0345) = true := by decide
/-- V-FLW-13, V-TMR-10: a faulting step does not tick. -/
theorem test_ret_underflow :
    stepAt (State.reset.setDt 5) 0x00EE
      (fun t => faulted .stackUnderflow 0x0200 0x00EE 0 t && t.dt == 5 && t.frames == []) = true := by decide
/-- V-FLW-18. -/
theorem test_jpV0_no_cut : stepAt (withRegs 0 0xFF 1 0) 0xBFFF (fun t => t.pc == 0x10FE) = true := by decide
/-- V-FLW-8 and V-FLW-19. -/
theorem test_fetch_faults :
    answers (step (atPc 0x0FFF)) (faulted .addressViolation 0x0FFF 0x0000 0x1000) = true ∧
    answers (step (atPc 0x10FE)) (faulted .addressViolation 0x10FE 0x0000 0x10FE) = true := by decide

/-! ### Skips (V-SKP) -/

/-- V-SKP-1 and V-SKP-2. -/
theorem test_seImm :
    stepAt (withRegs 0xA 0x42 0 0) 0x3A42 (fun t => t.pc == 0x0204) = true ∧
    stepAt (withRegs 0xA 0x43 0 0) 0x3A42 (fun t => t.pc == 0x0202) = true := by decide
/-- V-SKP-4 and V-SKP-5. -/
theorem test_sneImm :
    stepAt (withRegs 0xA 0x42 0 0) 0x4A42 (fun t => t.pc == 0x0202) = true ∧
    stepAt (withRegs 0xA 0x43 0 0) 0x4A42 (fun t => t.pc == 0x0204) = true := by decide
/-- V-SKP-9 and V-SKP-7. -/
theorem test_seReg :
    stepAt (withRegs 1 7 2 7) 0x5127 (fun t => t.pc == 0x0204) = true ∧
    stepAt (withRegs 1 7 2 8) 0x5120 (fun t => t.pc == 0x0202) = true := by decide
/-- V-SKP-10 and V-SKP-13. -/
theorem test_sneReg :
    stepAt (withRegs 1 7 2 7) 0x9120 (fun t => t.pc == 0x0202) = true ∧
    stepAt (withRegs 1 7 2 8) 0x912F (fun t => t.pc == 0x0204) = true := by decide

/-! ### Immediates and random (V-IMM) -/

/-- V-IMM-1. -/
theorem test_ldImm : stepAt State.reset 0x6AFF (fun t => t.readV 0xA == 0xFF && t.pc == 0x0202) = true := by decide
/-- V-IMM-4. -/
theorem test_addImm_wraps_without_flag :
    stepAt (withRegs 0xA 0xFF 0xF 0x55) 0x7A02 (fun t => t.readV 0xA == 0x01 && t.readV 0xF == 0x55) = true := by decide
/-- V-IMM-7. -/
theorem test_ldI : stepAt State.reset 0xAFFF (fun t => t.I == 0xFFF && t.pc == 0x0202) = true := by decide
/-- V-IMM-9. -/
theorem test_rnd :
    stepAt { State.reset with randIn := [0xB7] } 0xC30F
      (fun t => t.readV 3 == 0x07 && t.randIn == [] && t.randDrawn == 1) = true := by decide

/-! ### Family 8 (V-ALU) -/

/-- V-ALU-1. -/
theorem test_ldReg :
    stepAt ((withRegs 1 0x01 2 0xAB).writeV 0xF 0x77) 0x8120 (fun t => t.readV 1 == 0xAB && t.readV 0xF == 0x77) = true := by
  decide
/-- V-ALU-4. -/
theorem test_orReg :
    stepAt ((withRegs 1 0xF0 2 0x0F).writeV 0xF 0x77) 0x8121 (fun t => t.readV 1 == 0xFF && t.readV 0xF == 0x77) = true := by
  decide
/-- V-ALU-5. -/
theorem test_andReg :
    stepAt ((withRegs 1 0xF0 2 0x3C).writeV 0xF 0x77) 0x8122 (fun t => t.readV 1 == 0x30 && t.readV 0xF == 0x77) = true := by
  decide
/-- V-ALU-6. -/
theorem test_xorReg :
    stepAt ((withRegs 1 0xF0 2 0x3C).writeV 0xF 0x77) 0x8123 (fun t => t.readV 1 == 0xCC && t.readV 0xF == 0x77) = true := by
  decide
/-- V-ALU-10. -/
theorem test_addReg_carry :
    stepAt (withRegs 1 0xFF 2 0x01) 0x8124 (fun t => t.readV 1 == 0x00 && t.readV 0xF == 1) = true := by decide
/-- V-ALU-15: x = F, the flag is written last. -/
theorem test_addReg_into_vf : stepAt (withRegs 0xF 0x10 1 0x20) 0x8F14 (fun t => t.readV 0xF == 0) = true := by decide
/-- V-ALU-19. -/
theorem test_subReg_equal :
    stepAt (withRegs 1 0x34 2 0x34) 0x8125 (fun t => t.readV 1 == 0x00 && t.readV 0xF == 1) = true := by decide
/-- V-ALU-20. -/
theorem test_subReg_borrow :
    stepAt (withRegs 1 0x12 2 0x34) 0x8125 (fun t => t.readV 1 == 0xDE && t.readV 0xF == 0) = true := by decide
/-- V-ALU-25. -/
theorem test_subnReg :
    stepAt (withRegs 1 0x12 2 0x34) 0x8127 (fun t => t.readV 1 == 0x22 && t.readV 2 == 0x34 && t.readV 0xF == 1) = true := by
  decide
/-- V-ALU-28. -/
theorem test_shr_vx :
    stepAt (withRegs 1 0x05 2 0xF0) 0x8126 (fun t => t.readV 1 == 0x02 && t.readV 0xF == 1) = true := by decide
/-- V-ALU-29. -/
theorem test_shr_vy :
    stepAt (shiftsVy (withRegs 1 0x05 2 0xF0)) 0x8126
      (fun t => t.readV 1 == 0x78 && t.readV 2 == 0xF0 && t.readV 0xF == 0) = true := by decide
/-- V-ALU-34. -/
theorem test_shl_vx :
    stepAt (withRegs 1 0x81 2 0x0F) 0x812E (fun t => t.readV 1 == 0x02 && t.readV 0xF == 1) = true := by decide
/-- V-ALU-35. -/
theorem test_shl_vy :
    stepAt (shiftsVy (withRegs 1 0x81 2 0x0F)) 0x812E (fun t => t.readV 1 == 0x1E && t.readV 0xF == 0) = true := by decide
/-- V-ALU-40. -/
theorem test_illegal_family_8 :
    stepAt (withRegs 1 1 2 2) 0x8128 (fun t => faulted .malformedOpcode 0x0200 0x8128 0x8128 t && t.readV 1 == 1) = true := by
  decide

/-! ### Display (V-DRW) -/

/-- V-DRW-20. -/
theorem test_cls :
    stepAt { (State.reset.writeV 0xF 1) with fb := Vector.replicate 32 (Vector.replicate 64 true) } 0x00E0
      (fun t => !t.fb[0][0] && !t.fb[31][63] && t.readV 0xF == 1 && t.frames == [false]) = true := by decide
/-- V-DRW-3: glyph A at column 62, clipped at the right edge. -/
theorem test_drw_clips :
    stepAt ((withRegs 1 62 2 0).setI 0x032) 0xD125
      (fun t => t.fb[0][62] && t.fb[0][63] && t.fb[1][62] && !t.fb[1][63] && !t.fb[0][0] && !t.fb[1][0] &&
        t.readV 0xF == 0 && t.frames == [true]) = true := by decide
/-- V-DRW-5: a pixel that was on goes off, VF = 1. -/
theorem test_drw_collides :
    stepAt { State.reset with fb := State.reset.fb.set 0 (State.reset.fb[0].set 0 true) } 0xD015
      (fun t => !t.fb[0][0] && t.fb[0][1] && t.fb[4][3] && t.readV 0xF == 1) = true := by decide

/-! ### Keys (V-KEY) -/

/-- V-KEY-1 and V-KEY-6. -/
theorem test_skp :
    stepAt (withKey 7 7) 0xE19E (fun t => t.pc == 0x0204) = true ∧
    stepAt (withKey 7 0x10) 0xE19E (faulted .keyIndexViolation 0x0200 0xE19E 0x0010) = true := by decide
/-- V-KEY-3 and V-KEY-7. -/
theorem test_sknp :
    stepAt (withKey 7 7) 0xE1A1 (fun t => t.pc == 0x0202) = true ∧
    stepAt (withKey 7 0xFF) 0xE1A1 (faulted .keyIndexViolation 0x0200 0xE1A1 0x00FF) = true := by decide
/-- V-KEY-10. -/
theorem test_ldVxK :
    stepAt { State.reset with dt := 5, keyIn := [0xB] } 0xF30A
      (fun t => t.readV 3 == 0x0B && t.pc == 0x0202 && t.dt == 4 && t.frames == [false]) = true := by decide
/-- V-KEY-12. -/
theorem test_ldVxK_waits :
    stepAt (State.reset.setDt 5) 0xF30A
      (fun t => t.waiting && t.pc == 0x0200 && t.dt == 5 && t.frames == [] && t.run == .running) = true := by decide

/-! ### Timers and index (V-TMR, V-IDX) -/

/-- V-TMR-1. -/
theorem test_ldVxDt : stepAt (State.reset.setDt 0x2A) 0xF207 (fun t => t.readV 2 == 0x2A && t.dt == 0x29) = true := by decide
/-- V-TMR-3. -/
theorem test_ldDtVx : stepAt (withRegs 2 0x10 0 0) 0xF215 (fun t => t.dt == 0x0F && t.st == 0) = true := by decide
/-- V-TMR-6. -/
theorem test_ldStVx : stepAt (withRegs 2 0xFF 0 0) 0xF218 (fun t => t.st == 0xFE && t.dt == 0) = true := by decide
/-- V-IDX-4. -/
theorem test_addI_wraps :
    stepAt ((withRegs 2 0xFF 0 0).setI 0xFFF) 0xF21E (fun t => t.I == 0x0FE && t.readV 0xF == 1) = true := by decide
/-- V-IDX-6: x = F. -/
theorem test_addI_of_vf :
    stepAt ((withRegs 0xF 2 0 0).setI 0x010) 0xFF1E (fun t => t.I == 0x012 && t.readV 0xF == 0) = true := by decide
/-- V-IDX-8 and V-IDX-11. -/
theorem test_ldF :
    stepAt (withRegs 2 0x0F 0 0) 0xF229 (fun t => t.I == 0x04B) = true ∧
    stepAt (withRegs 2 0xFF 0 0) 0xF229 (fun t => t.I == 0x4FB) = true := by decide

/-! ### Memory transfer (V-MEM) -/

/-- V-MEM-1. -/
theorem test_ldB :
    stepAt ((withRegs 2 157 0 0).setI 0x300) 0xF233
      (fun t => t.readBlock 0x300 3 == [1, 5, 7] && t.I == 0x300 && t.pc == 0x0202) = true := by decide
/-- V-MEM-6. -/
theorem test_ldB_past_memory :
    stepAt ((withRegs 2 100 0 0).setI 0xFFE) 0xF233
      (fun t => faulted .addressViolation 0x0200 0xF233 0x1000 t && t.readBlock 0xFFE 2 == [0, 0]) = true := by decide
/-- V-MEM-9, with V0 and V3 set. -/
theorem test_ldMemVx :
    stepAt ((withRegs 0 0x10 3 0x13).setI 0x300) 0xF355
      (fun t => t.readBlock 0x2FF 6 == [0, 0x10, 0, 0, 0x13, 0] && t.I == 0x300) = true := by decide
/-- V-MEM-14. -/
theorem test_ldMemVx_past_memory :
    stepAt ((withRegs 0 0x10 1 0x11).setI 0xFFF) 0xF155
      (fun t => faulted .addressViolation 0x0200 0xF155 0x1000 t && t.readByte 0xFFF == 0) = true := by decide
/-- V-MEM-19: the font from address 0. -/
theorem test_ldVxMem :
    stepAt (withRegs 5 0x11 0 0) 0xF465
      (fun t => allRegs.map t.readV == [0xF0, 0x90, 0x90, 0x90, 0xF0, 0x11, 0, 0, 0, 0, 0, 0, 0, 0, 0, 0]) = true := by decide

/-! ### Reset, load, HALTED (V-RST) -/

/-- V-RST-6: a step from bare reset runs the zero word at 0x200. -/
theorem test_step_from_reset : answers (step State.reset) (fun t => t.pc == 0x0202) = true := by decide
/-- V-RST-3. -/
theorem test_boot :
    (State.reset.boot [0x60, 0x05]).map (fun t => t.readBlock 0x1FF 4) = some [0, 0x60, 0x05, 0] := by decide
/-- Each glyph of FONT begins with its first row at 5 times its digit (10_state.md R24). -/
theorem test_font_first_rows :
    (List.range 16).map (fun d => State.reset.readByte (5 * d)) =
      [0xF0, 0x20, 0xF0, 0xF0, 0x90, 0xF0, 0xF0, 0xF0, 0xF0, 0xF0, 0xF0, 0xE0, 0xF0, 0xE0, 0xF0, 0xF0] := by decide
/-- R88. -/
theorem test_halted_has_no_step :
    (match step { State.reset with run := .halted } with | .fault .halted => true | _ => false) = true := by decide
/-- A store of what an unlisted cell reads as leaves nothing listed. -/
theorem test_memory_is_canonical : (State.reset.writeByte 0x300 7).mem = [(0x300, 7)] ∧
    ((State.reset.writeByte 0x300 7).writeByte 0x300 0).mem = [] := by decide

/-! ### Witnesses: a concrete state and operands that meet the hypotheses of each statement, one for each clause, at the
ends of its range -/

/-- The state at the start of Execute. -/
def started (s : State) : State := { s with dirty := false, waiting := false }

/-- The reset state with a word at pc. -/
def word (w : Nat) : State := State.reset.withFetchWord 16 w

theorem witness_DecodeOfEncodeIsTheInstruction :
    (Instr.sys 0x0E1).wellFormed = true ∧ (Instr.drw 15 15 15).wellFormed = true := by decide

theorem witness_EncodeOfDecodeIsTheWord : decodeWord 0x912F = .ok (.sneReg 1 2 0xF) := by decide

theorem witness_IllegalWordsAreThoseOfFamilies8EF :
    decodeWord 0x8FFF = .error (.malformedOpcode 0x8FFF) ∧ decodeWord 0xE000 = .error (.malformedOpcode 0xE000) ∧
    decodeWord 0xFFFF = .error (.malformedOpcode 0xFFFF) ∧ decodeWord 0x800E = .ok (.shl 0 0) := by decide

theorem witness_DecodedWordMatchesItsTableRowOnly :
    decodeWord 0x00E0 = .ok .cls ∧ (0x00E0 : Word) &&& tableMask (.sys 0) = tableMatch (.sys 0) := by decide

theorem witness_StepRunsTheDecodedInstruction :
    let s := (atPc 0xFFE).withFetchWord 16 0x6AFF
    s.run = .running ∧ s.pc.toNat ≤ 0xFFE ∧
      decodeWord (s.readByte s.pc.toNat ++ s.readByte (s.pc.toNat + 1)) = .ok (.ldImm 0xA 0xFF) ∧
      answers (exec (.ldImm 0xA 0xFF) (started s)) (fun t => t.run == .running && !t.waiting) = true := by decide

theorem witness_StepRunsTheDecodedInstruction_halts_or_waits :
    answers (exec .ret (started (word 0x00EE))) (fun t => t.run == .halted) = true ∧
    answers (exec (.ldVxK 3) (started (word 0xF30A))) (fun t => t.waiting) = true := by decide

theorem witness_FetchIsBigEndianAndRangeChecked :
    (atPc 0xFFE).pc.toNat ≤ 0xFFE ∧ (atPc 0xFFF).pc.toNat = 0xFFF ∧ (atPc 0x1000).pc.toNat > 0xFFF ∧
    (atPc 0xFFF).fetch = .error 0x1000 := by decide

theorem witness_UnfetchablePcHalts :
    (atPc 0xFFF).run = .running ∧ (atPc 0xFFF).pc.toNat > 0xFFE ∧ (atPc 0xFFFF).pc.toNat > 0xFFF := by decide

theorem witness_IllegalWordHalts :
    ([0x8008, 0x8FFF, 0xE000, 0xE19F, 0xF000, 0xFFFF] : List Nat).all (fun w =>
      let s := word w
      s.run == .running && decide (s.pc.toNat ≤ 0xFFE) &&
        BitVec.ofNat 16 w == s.readByte s.pc.toNat ++ s.readByte (s.pc.toNat + 1) &&
        decide ((w / 4096 = 0x8 ∧ w % 16 ∈ [0x8, 0x9, 0xA, 0xB, 0xC, 0xD, 0xF]) ∨
          (w / 4096 = 0xE ∧ w % 256 ∉ [0x9E, 0xA1]) ∨
          (w / 4096 = 0xF ∧ w % 256 ∉ [0x07, 0x0A, 0x15, 0x18, 0x1E, 0x29, 0x33, 0x55, 0x65]))) = true := by decide

theorem witness_HaltedMachineHasNoStep : ({ State.reset with run := .halted } : State).run = .halted := rfl

theorem witness_FaultChangesOnlyRunAndErr :
    (∃ t, step (word 0x00EE) = .next t ∧ t.run = .halted) ∧ (word 0x00EE).fetch = .ok 0x00EE ∧
    (∃ t, step (atPc 0xFFF) = .next t ∧ t.run = .halted) ∧ (atPc 0xFFF).fetch = .error 0x1000 :=
  ⟨exists_next (by decide), by decide, exists_next (by decide), by decide⟩

theorem witness_InstructionsRaiseExactlyTheirFaults :
    Rules.faultIn sysFaults (.sys 0x123) = some (.malformedOpcode, 0x123) ∧
    Rules.faultIn State.reset .ret = some (.stackUnderflow, 0) ∧ Rules.faultIn oneCall .ret = none ∧
    Rules.faultIn fullStack (.call 0) = some (.stackOverflow, 16) ∧
    Rules.faultIn { fullStack with sp := 15 } (.call 0) = none ∧
    Rules.faultIn (withIndex 0xFFF) (.drw 0 0 2) = some (.addressViolation, 0x1000) ∧
    Rules.faultIn (withIndex 0xFFF) (.drw 0 0 1) = none ∧ Rules.faultIn (withIndex 0xFFF) (.drw 0 0 0) = none ∧
    Rules.faultIn (withIndex 0xFFE) (.ldB 0) = some (.addressViolation, 0x1000) ∧
    Rules.faultIn (withIndex 0xFFD) (.ldB 0) = none ∧
    Rules.faultIn (withIndex 0xFF1) (.ldMemVx 15) = some (.addressViolation, 0x1000) ∧
    Rules.faultIn (withIndex 0xFF0) (.ldVxMem 15) = none ∧
    Rules.faultIn (withKey 7 16) (.skp 1) = some (.keyIndexViolation, 16) ∧
    Rules.faultIn (withKey 7 15) (.sknp 1) = none := by decide

theorem witness_EveryCompletedInstructionTicksOnce :
    (∃ u, step ({ word 0x1200 with dt := 1, st := 0xFF } : State) = .next u ∧ u.run = .running ∧ u.waiting = false) ∧
    (∃ u, step (word 0x1200) = .next u ∧ u.run = .running ∧ u.waiting = false) :=
  ⟨exists_next (by decide), exists_next (by decide)⟩

theorem witness_EveryCompletedInstructionTicksOnce_timers :
    ((withRegs 2 1 0 0).withFetchWord 16 0xF215).fetchDecode = .ok (.ldDtVx 2) ∧ ((withRegs 2 1 0 0).readV 2).toNat > 0 ∧
    (∃ u, step ((withRegs 2 1 0 0).withFetchWord 16 0xF215) = .next u ∧ u.run = .running ∧ u.waiting = false) ∧
    (word 0xF207).fetchDecode = .ok (.ldVxDt 2) ∧
    (∃ u, step (word 0xF207) = .next u ∧ u.run = .running ∧ u.waiting = false) :=
  ⟨by decide, by decide, exists_next (by decide), by decide, exists_next (by decide)⟩

theorem witness_HostIsToldDirtyExactlyForDraws :
    (∃ u, step (word 0xD010) = .next u ∧ u.run = .running ∧ u.waiting = false) ∧
    (∃ u, step (word 0x00E0) = .next u ∧ u.run = .running ∧ u.waiting = false) :=
  ⟨exists_next (by decide), exists_next (by decide)⟩

theorem witness_TimersAtTheEndOfAStep :
    ([(0xF215, .ldDtVx 2), (0xF218, .ldStVx 2), (0xF207, .ldVxDt 2), (0x1200, .jp 0x200)] : List (Nat × Instr)).all
      (fun p => decide ((word p.1).fetchDecode = .ok p.2) &&
        answers (step (word p.1)) (fun u => u.run == .running && !u.waiting)) = true := by decide

theorem witness_StepsNeverWriteKeysOrParameters : ∃ t, step (word 0x1200) = .next t ∧ t.pc = 0x200 :=
  exists_next (by decide)

theorem witness_SoundTimerInfluencesNothing : ∃ t, step (word 0xF218) = .next t ∧ t.pc = 0x202 :=
  exists_next (by decide)

theorem witness_PcAfterEachInstruction :
    (Rules.faultIn oneCall .ret = none ∧ Rules.waitsIn oneCall .ret = false) ∧
    (Rules.faultIn { State.reset with keyIn := [0] } (.ldVxK 0) = none ∧
      Rules.waitsIn { State.reset with keyIn := [0] } (.ldVxK 0) = false) ∧
    Rules.faultIn State.reset .ret ≠ none := by decide

theorem witness_InstructionsWriteOnlyTheirRegisters :
    Rules.writesV (.addReg 1 2) 2 = false ∧ Rules.writesV (.ldVxMem 14) 15 = false ∧
    Rules.writesV (.drw 1 2 3) 1 = false := by decide

theorem witness_SpecialStateHasOnlyItsWriters :
    (∀ n, Instr.cls ≠ .ldI n) ∧ (∀ x, Instr.cls ≠ .addI x) ∧ (∀ x, Instr.cls ≠ .ldF x) ∧ (∀ n, Instr.cls ≠ .call n) ∧
    Instr.cls ≠ .ret ∧ (∀ x, Instr.cls ≠ .ldDtVx x) ∧ (∀ x, Instr.cls ≠ .ldStVx x) ∧ Instr.ret ≠ .cls ∧
    (∀ x y n, Instr.cls ≠ .drw x y n) ∧ (∀ x kk, Instr.cls ≠ .rnd x kk) ∧ (∀ x, Instr.cls ≠ .ldVxK x) := by
  simp

theorem witness_MemoryIsWrittenOnlyWhereStored :
    (0xFF0 < (withIndex 0xFF1).I.toNat ∨ (withIndex 0xFF1).I.toNat + 2 < 0xFF0) ∧
    (0x303 < (withIndex 0x300).I.toNat ∨ (withIndex 0x300).I.toNat + 2 < 0x303) ∧
    (∀ x, Instr.cls ≠ .ldB x) ∧ (∀ x, Instr.cls ≠ .ldMemVx x) :=
  ⟨by decide, by decide, by simp, by simp⟩

theorem witness_SysFollowsItsPolicy : State.reset.cfg.sysPolicy = .nop ∧ sysFaults.cfg.sysPolicy = .fault := ⟨rfl, rfl⟩

theorem witness_OffsetJumpAddsV0 :
    (0xFFF : Index).toNat + ((withRegs 0 0 1 0).readV 0).toNat > 0xFFE ∧
    (0xFFF : Index).toNat + ((withRegs 0 0xFF 1 0).readV 0).toNat > 0xFFE := by decide

theorem witness_CallPushesItsOwnAddress :
    State.reset.sp.val < 16 ∧ ({ fullStack with sp := 15 } : State).sp.val < 16 ∧ fullStack.sp.val = 16 := by decide

theorem witness_ReturnPopsAndAddsTwo : 0 < oneCall.sp.val ∧ 0 < fullStack.sp.val ∧ State.reset.sp.val = 0 := by decide

theorem witness_ReturnUndoesCall :
    ∃ (t m : State) (_ : State.reset.sp.val < 16), exec (.call 0xABC) State.reset = .next t ∧ m.sp = t.sp ∧
      m.stack[State.reset.sp.val] = t.stack[State.reset.sp.val] ∧ m.pc = 0x0EE := by
  obtain ⟨t, ht, _⟩ := exists_next (r := exec (.call 0xABC) State.reset) (P := fun t => t.pc = 0xABC) (by decide)
  exact ⟨t, t.setPc 0x0EE, by decide, ht, rfl, rfl, rfl⟩

theorem witness_ImmediateSkips : State.reset.readV 3 = 0 ∧ State.reset.readV 3 ≠ 1 := by decide

theorem witness_RegisterSkips : (withRegs 1 7 2 7).readV 1 = (withRegs 1 7 2 7).readV 2 ∧
    (withRegs 1 7 2 8).readV 1 ≠ (withRegs 1 7 2 8).readV 2 := by decide

theorem witness_RandomByteIsDrawnAndMasked : ({ State.reset with randIn := [0xB7] } : State).randIn.head? = some 0xB7 := rfl

theorem witness_AssignAndLogic : ∃ (x y : Reg) (i : Instr) (result : Byte),
    i = .xorReg x y ∧ result = (withRegs 1 0xF0 2 0x3C).readV x ^^^ (withRegs 1 0xF0 2 0x3C).readV y ∧ result = 0xCC :=
  ⟨1, 2, _, _, rfl, rfl, by decide⟩

theorem witness_AddAndSubtractWithFlag :
    let a := ((withRegs 1 0x12 2 0x34).readV 1).toNat
    let b := ((withRegs 1 0x12 2 0x34).readV 2).toNat
    (0x46 = (a + b) % 256 ∧ 0 = if a + b > 255 then 1 else 0) ∧
    (0xDE = (if a ≥ b then a - b else a + 256 - b) ∧ 0 = if a ≥ b then 1 else 0) ∧
    (0x22 = (if b ≥ a then b - a else b + 256 - a) ∧ 1 = if b ≥ a then 1 else 0) := by decide

theorem witness_ShiftsWithFlag :
    ((withRegs 1 5 2 0xF0).cfg.shiftSource = .vx ∧ 5 = ((withRegs 1 5 2 0xF0).readV 1).toNat) ∧
    ((shiftsVy (withRegs 1 5 2 0xF0)).cfg.shiftSource = .vy ∧ 0xF0 = ((shiftsVy (withRegs 1 5 2 0xF0)).readV 2).toNat) := by
  decide

theorem witness_DrawXorsTheSprite :
    ((withIndex 0xFFF).I.toNat + 1 - 1 ≤ 0xFFF) ∧ ((withIndex 0xFF1).I.toNat + 15 - 1 ≤ 0xFFF) ∧
    ((0 : Fin 16).val = 0 ∨ (withIndex 0xFFF).I.toNat + (0 : Fin 16).val - 1 ≤ 0xFFF) := by decide

theorem witness_DrawXorsTheSprite_collides :
    ({ State.reset with fb := State.reset.fb.set 0 (State.reset.fb[0].set 0 true) } : State).collides 0 1 5 :=
  ⟨0, 0, by decide, by decide⟩

theorem witness_DrawXorsTheSprite_does_not_collide : ¬ State.reset.collides 0 1 5 := by
  rintro ⟨row, col, _, h⟩
  simp [State.reset, State.resetWith] at h

theorem witness_DrawTwiceRestores :
    ∃ t m : State, ((5 : Fin 16).val = 0 ∨ State.reset.I.toNat + (5 : Fin 16).val - 1 ≤ 0xFFF) ∧
      exec (.drw 0 1 5) State.reset = .next t ∧ m.fb = t.fb ∧ m.I = State.reset.I ∧
      m.readV 0 = State.reset.readV 0 ∧ m.readV 1 = State.reset.readV 1 ∧
      ∀ k, k < (5 : Fin 16).val → m.readByte (State.reset.I.toNat + k) = State.reset.readByte (State.reset.I.toNat + k) := by
  obtain ⟨t, ht, _⟩ := exists_next (r := exec (.drw 0 1 5) State.reset) (P := fun t => t.fb[0][0] = true) (by decide)
  exact ⟨t, { State.reset with fb := t.fb }, by decide, ht, rfl, rfl, rfl, rfl, fun _ _ => rfl⟩

theorem witness_KeySkips :
    ((withKey 7 0).readV 1).toNat < 16 ∧ ((withKey 7 15).readV 1).toNat < 16 ∧ ((withKey 7 16).readV 1).toNat > 15 ∧
    ((withKey 7 0xFF).readV 1).toNat > 15 := by decide

theorem witness_KeyReadTakesTheAnswer : ({ State.reset with keyIn := [0xB, 0] } : State).keyIn = 0xB :: [0] := rfl

theorem witness_KeyReadHoldsUntilAnswered :
    (word 0xF30A).run = .running ∧ (word 0xF30A).fetchDecode = .ok (.ldVxK 3) ∧ (word 0xF30A).keyIn = [] := by decide

theorem witness_TimerInstructions :
    (∃ t, exec (.ldDtVx 2) State.reset = .next t ∧ t.pc = 0x202) ∧
    (∃ t, exec (.ldStVx 2) State.reset = .next t ∧ t.pc = 0x202) :=
  ⟨exists_next (by decide), exists_next (by decide)⟩

theorem witness_DecimalDigitsAreStored : (withIndex 0xFFD).I.toNat + 2 ≤ 0xFFF ∧ (withIndex 0).I.toNat + 2 ≤ 0xFFF := by
  decide

theorem witness_RegistersAreStored :
    (withIndex 0xFF0).I.toNat + (15 : Reg).val ≤ 0xFFF ∧ (withIndex 0xFFF).I.toNat + (0 : Reg).val ≤ 0xFFF := by decide

theorem witness_RegistersAreLoaded :
    (withIndex 0xFF0).I.toNat + (15 : Reg).val ≤ 0xFFF ∧ (withIndex 0xFFF).I.toNat + (0 : Reg).val ≤ 0xFFF := by decide

theorem witness_ExtentPastMemoryFaultsWithNoEffect :
    ((15 : Fin 16).val > 0 ∧ (withIndex 0xFF2).I.toNat + (15 : Fin 16).val - 1 > 0xFFF) ∧
    (withIndex 0xFFE).I.toNat + 2 > 0xFFF ∧ (withIndex 0xFF1).I.toNat + (15 : Reg).val > 0xFFF ∧
    (withIndex 0xFFF).I.toNat + (1 : Reg).val > 0xFFF := by decide

theorem witness_StoreThenLoadRestores :
    ∃ t m : State, (withIndex 0xFF0).I.toNat + (15 : Reg).val ≤ 0xFFF ∧
      exec (.ldMemVx 15) (withIndex 0xFF0) = .next t ∧ m.I = (withIndex 0xFF0).I ∧
      ∀ k, k ≤ (15 : Reg).val → m.readByte ((withIndex 0xFF0).I.toNat + k) = t.readByte ((withIndex 0xFF0).I.toNat + k) := by
  obtain ⟨t, ht, hi⟩ := exists_next (r := exec (.ldMemVx 15) (withIndex 0xFF0)) (P := fun t => t.I = 0xFF0) (by decide)
  exact ⟨t, t.writeV 0 1, by decide, ht, hi, fun _ _ => rfl⟩

theorem witness_StoredWordIsTheOneFetched :
    ∃ t u : State, 1 ≤ (1 : Reg).val ∧ (withIndex 0xFFE).I.toNat + (1 : Reg).val ≤ 0xFFF ∧
      exec (.ldMemVx 1) (withIndex 0xFFE) = .next t ∧ u.pc = (withIndex 0xFFE).I.setWidth 16 ∧ u.mem = t.mem ∧
      u.cfg = t.cfg := by
  obtain ⟨t, ht, _⟩ := exists_next (r := exec (.ldMemVx 1) (withIndex 0xFFE)) (P := fun t => t.I = 0xFFE) (by decide)
  exact ⟨t, t.setPc 0xFFE, by decide, by decide, ht, rfl, rfl, rfl⟩

theorem witness_StepKeepsTheInvariant : (word 0x2ABC).Inv ∧ ∃ t, step (word 0x2ABC) = .next t ∧ t.sp.val = 1 :=
  ⟨⟨by decide, by decide, by decide, by decide, rfl, fun h => absurd h (by decide)⟩, exists_next (by decide)⟩

theorem witness_StepKeepsTheInvariant_waiting :
    ({ word 0xF30A with waiting := true, keyIn := [0xB] } : State).Inv ∧
    ∃ t, step ({ word 0xF30A with waiting := true, keyIn := [0xB] } : State) = .next t ∧ t.readV 3 = 0xB :=
  ⟨⟨by decide, by decide, by decide, by decide, rfl, fun _ => ⟨rfl, 3, by decide⟩⟩, exists_next (by decide)⟩

theorem witness_HostMovesKeepTheInvariant :
    (word 0x2ABC).Inv ∧ (HostMove.reset.apply (word 0x2ABC)).isSome = true ∧
    ((HostMove.boot [0x60, 0x05]).apply (word 0x2ABC)).isSome = true :=
  ⟨⟨by decide, by decide, by decide, by decide, rfl, fun h => absurd h (by decide)⟩, by decide, by decide⟩

theorem witness_ReachableMachinesStopOnlyHalted :
    Reachable State.reset ∧ State.reset.run = .running ∧
    ∃ s : State, Reachable s ∧ step s = .fault .halted := by
  obtain ⟨t, ht, hrun⟩ := exists_next (r := step (State.resetWith sysFaults.cfg)) (P := fun t => t.run = .halted) (by decide)
  exact ⟨.reset _, rfl, t, .step (.reset _) ht, by simp [step, hrun]⟩

theorem witness_BootPlacesTheImage :
    (List.replicate 3584 (0xAB : Byte)).length ≤ 3584 ∧ (List.replicate 3585 (0xAB : Byte)).length > 3584 := by
  simp only [List.length_replicate]; omega

theorem witness_HostResetRestoresTheResetState : ({ fullStack with run := .halted } : State).waiting = false := rfl

end Sys2Proof.Tests
end

section
/-! SUPPORT. The timer tick of a step that completes (40_cycle.md R85). -/

namespace Sys2Proof.Machine

variable {s t u : State}

/-! ### A step that completes -/

/-- Every exception of fetch or decode halts the machine (R82, R83, R190). -/
theorem State.run_of_fetchDecode_error (h : s.fetchDecode = .error t) : t.run = .halted := by
  obtain ⟨bad, -, hd⟩ | ⟨op, -, ⟨e, -, hd⟩ | ⟨i, -, hd⟩⟩ := s.fetchDecode_cases
  · cases hd.symm.trans h
    rfl
  · cases hd.symm.trans h
    rfl
  · cases hd.symm.trans h

/-- A step that ends running and not waiting is an executed instruction, then one tick and one notification (R81). -/
theorem step_completes (h : step s = .next u) (hrun : u.run = .running) (hwait : u.waiting = false) :
    ∃ i t, s.fetchDecode = .ok i ∧ exec i s.beginStep = .next t ∧ u = t.tick.notify := by
  obtain ⟨-, hd | ⟨i, t, hd, ht, ⟨hstop, rfl⟩ | ⟨-, hu⟩⟩⟩ := step_next h
  · simp [State.run_of_fetchDecode_error hd] at hrun
  · simp [hrun, hwait] at hstop
  · exact ⟨i, t, (s.fetchDecode_beginStep_ok i).mp hd, ht, hu⟩

/-! ### The tick, and the instructions that move DT -/

theorem tickTimer_of_zero {v : Byte} (h : v.toNat = 0) : tickTimer v = 0 :=
  BitVec.eq_of_toNat_eq (by simp [toNat_tickTimer, h])

/-- Fx15 leaves Vx in DT (R160). -/
theorem dt_of_exec_ldDtVx {x : Reg} (h : exec (.ldDtVx x) s = .next t) : t.dt = s.readV x := by
  cases h
  rw [State.advance_dt, State.setDt_dt]

/-- Fx07 leaves the DT it found in Vx (R159). -/
theorem readV_of_exec_ldVxDt {x : Reg} (h : exec (.ldVxDt x) s = .next t) : t.readV x = s.dt := by
  cases h
  rw [State.readV_advance, State.readV_writeV_self]

/-- Settles O13: the end state is the tick of the state its instruction left, and the two timer instructions are read off
that state. -/
theorem everyCompletedInstructionTicksOnce : Obligations.EveryCompletedInstructionTicksOnce := by
  unfold Obligations.EveryCompletedInstructionTicksOnce
  intro s u h hrun hwait
  obtain ⟨i, t, hd, ht, rfl⟩ := step_completes h hrun hwait
  refine ⟨i, t, hd, ht, fun _ => toNat_tickTimer t.dt, tickTimer_of_zero, fun _ => toNat_tickTimer t.st, tickTimer_of_zero,
    ?_, ?_⟩
  · rintro x rfl -
    have hdt : t.dt = s.beginStep.readV x := dt_of_exec_ldDtVx ht
    rw [State.notify_dt, State.tick_dt, toNat_tickTimer, hdt, State.readV_beginStep]
  · rintro x rfl
    have hvx : t.readV x = s.beginStep.dt := readV_of_exec_ldVxDt ht
    rw [State.readV_notify, State.readV_tick, hvx, State.beginStep_dt]

end Sys2Proof.Machine
end

section
/-! SUPPORT. The two jumps that only set pc (41_flow.md R98, R100), and the fetch at a target out of range
(40_cycle.md R82). -/

namespace Sys2Proof.Machine

/-- A fetch whose second byte lies past memory fails with the lowest out-of-range address (R82). -/
theorem State.fetch_of_le_pc {s : State} (h : 0xFFF ≤ s.pc.toNat) : s.fetch = .error (firstBadAddress s.pc.toNat) := by
  obtain ⟨hlt, -⟩ | ⟨-, hf⟩ := s.fetch_cases
  · omega
  · exact hf

theorem exec_jp (nnn : Index) (s : State) : exec (.jp nnn) s = .next (s.setPc (nnn.setWidth 16)) := rfl

theorem exec_jpV0 (nnn : Index) (s : State) :
    exec (.jpV0 nnn) s = .next (s.setPc (offsetTarget nnn (s.readV 0))) := rfl

/-- Settles O23: the target is nnn zero-extended, and 0xFFF leaves no room for the second byte of a word. -/
theorem jumpSetsPc : Obligations.JumpSetsPc := by
  unfold Obligations.JumpSetsPc
  intro nnn s
  refine ⟨_, exec_jp nnn s, rfl, toNat_tableAddress nnn, ?_⟩
  rintro rfl
  exact State.fetch_of_le_pc (Nat.le_refl 0xFFF)

/-- Settles O24: the 16-bit sum is the sum of the numbers, so the failed fetch reports that sum, or 0x1000 for 0xFFF. -/
theorem offsetJumpAddsV0 : Obligations.OffsetJumpAddsV0 := by
  unfold Obligations.OffsetJumpAddsV0
  intro nnn s
  have hpc : (s.setPc (offsetTarget nnn (s.readV 0))).pc.toNat = nnn.toNat + (s.readV 0).toNat :=
    toNat_offsetTarget nnn (s.readV 0)
  refine ⟨_, exec_jpV0 nnn s, rfl, hpc, fun hsum => ?_⟩
  rw [State.fetch_of_le_pc (by omega), hpc, firstBadAddress, memSize]

end Sys2Proof.Machine
end

section
/-! SUPPORT. The two skips on an immediate (42_skip.md R106, R107), and the two outcomes of a skip (R110). -/

namespace Sys2Proof.Machine

/-! ### The two outcomes of a skip -/

theorem State.skipIf_of_true {s : State} {c : Bool} (h : c = true) : s.skipIf c = { s with pc := s.pc + 4 } := by
  rw [h]
  rfl

theorem State.skipIf_of_false {s : State} {c : Bool} (h : c = false) : s.skipIf c = { s with pc := s.pc + 2 } := by
  rw [h]
  rfl

/-! ### SE and SNE on an immediate -/

theorem exec_seImm (x : Reg) (kk : Byte) (s : State) : exec (.seImm x kk) s = .next (s.skipIf (s.readV x == kk)) := rfl

theorem exec_sneImm (x : Reg) (kk : Byte) (s : State) : exec (.sneImm x kk) s = .next (s.skipIf (s.readV x != kk)) := rfl

/-- Settles O28: SE and SNE test complementary conditions, so on either side exactly one of them skips. -/
theorem immediateSkips : Obligations.ImmediateSkips := by
  unfold Obligations.ImmediateSkips
  intro x kk s
  rw [exec_seImm, exec_sneImm]
  refine ⟨fun heq => ⟨?_, ?_⟩, fun hne => ⟨?_, ?_⟩⟩
  · rw [State.skipIf_of_true (beq_iff_eq.mpr heq)]
  · rw [State.skipIf_of_false (bne_eq_false_iff_eq.mpr heq)]
  · rw [State.skipIf_of_false (beq_eq_false_iff_ne.mpr hne)]
  · rw [State.skipIf_of_true (bne_iff_ne.mpr hne)]

end Sys2Proof.Machine
end

section
/-! SUPPORT. The loads and the add of an immediate (43_immediate.md R113 to R115), and the frame they share: one register
or I, and pc + 2. -/

namespace Sys2Proof.Machine

theorem exec_ldImm (x : Reg) (kk : Byte) (s : State) : exec (.ldImm x kk) s = .next ((s.writeV x kk).advance 2) := rfl

theorem exec_addImm (x : Reg) (kk : Byte) (s : State) :
    exec (.addImm x kk) s = .next ((s.writeV x (addResult (s.readV x) kk)).advance 2) := rfl

theorem exec_ldI (nnn : Index) (s : State) : exec (.ldI nnn) s = .next ((s.setI nnn).advance 2) := rfl

/-- A register written on the way to the next instruction leaves every other register as it was, VF too (R113, R114). -/
theorem State.readV_advance_writeV_of_ne (s : State) (n : Word) {x r : Reg} (v : Byte) (h : r ≠ x) :
    ((s.writeV x v).advance n).readV r = s.readV r := by
  rw [State.readV_advance, State.readV_writeV_of_ne s v h]

/-- Settles O30: the two register forms write one register and advance, so VF moves only as the destination; the sum is
the byte sum modulo 256. -/
theorem immediateLoadsAndAdd : Obligations.ImmediateLoadsAndAdd := by
  unfold Obligations.ImmediateLoadsAndAdd
  intro x kk nnn s
  refine ⟨⟨_, exec_ldImm x kk s, rfl, ?_, fun _ => s.readV_advance_writeV_of_ne 2 kk⟩,
    ⟨_, exec_addImm x kk s, rfl, ?_, fun _ => s.readV_advance_writeV_of_ne 2 _⟩, exec_ldI nnn s⟩
  · rw [State.readV_advance, State.readV_writeV_self]
  · rw [State.readV_advance, State.readV_writeV_self, toNat_addResult]

end Sys2Proof.Machine
end

section
/-! SUPPORT. CLS (45_display.md R136): the framebuffer is replaced by the all-zero grid, and pc moves on by 2. -/

namespace Sys2Proof.Machine

theorem exec_cls (s : State) : exec .cls s = .next ((s.setFb Framebuffer.clear).advance 2) := rfl

/-- Settles O35: CLS writes the framebuffer and advances, nothing more, and the grid it writes has every pixel off. -/
theorem clearScreen : Obligations.ClearScreen := by
  unfold Obligations.ClearScreen
  intro s
  refine ⟨_, exec_cls s, rfl, fun row col => ?_⟩
  rw [State.advance_fb, State.setFb_fb, Framebuffer.pixel_clear]

end Sys2Proof.Machine
end

section
/-! SUPPORT. Timer and index-register instructions (47_timers_index.md R159 to R161, R163): the one field each writes, and
pc + 2. -/

namespace Sys2Proof.Machine

variable {s t : State}

/-! ### The timers -/

theorem exec_ldVxDt (x : Reg) (s : State) : exec (.ldVxDt x) s = .next ((s.writeV x s.dt).advance 2) := rfl

theorem exec_ldDtVx (x : Reg) (s : State) : exec (.ldDtVx x) s = .next ((s.setDt (s.readV x)).advance 2) := rfl

theorem exec_ldStVx (x : Reg) (s : State) : exec (.ldStVx x) s = .next ((s.setSt (s.readV x)).advance 2) := rfl

/-- Fx18 leaves Vx in ST (R161). -/
theorem st_of_exec_ldStVx {x : Reg} (h : exec (.ldStVx x) s = .next t) : t.st = s.readV x := by
  cases h
  rw [State.advance_st, State.setSt_st]

/-- Settles O41: each instruction moves one value between Vx and a timer, and the tick takes one from what it finds in the
timer, stopping at 0. -/
theorem timerInstructions : Obligations.TimerInstructions := by
  unfold Obligations.TimerInstructions
  intro x s
  refine ⟨⟨_, exec_ldVxDt x s, rfl, readV_of_exec_ldVxDt (exec_ldVxDt x s), fun _ => s.readV_advance_writeV_of_ne 2 s.dt⟩,
    exec_ldDtVx x s, exec_ldStVx x s, fun t ht => ?_, fun t ht => ?_⟩
  · rw [State.tick_dt, toNat_tickTimer, dt_of_exec_ldDtVx ht]
  · rw [State.tick_st, toNat_tickTimer, st_of_exec_ldStVx ht]

/-! ### The address of a glyph -/

theorem exec_ldF (x : Reg) (s : State) : exec (.ldF x) s = .next ((s.setI (glyphAddress (s.readV x))).advance 2) := rfl

/-- Settles O43: 5 times a byte is at most 1275 and fits the 12 bits of I, so nothing of Vx is lost. -/
theorem glyphAddressIsFiveTimesVx : Obligations.GlyphAddressIsFiveTimesVx := by
  unfold Obligations.GlyphAddressIsFiveTimesVx
  intro x s
  refine ⟨_, exec_ldF x s, rfl, ?_⟩
  rw [State.advance_I, State.setI_I, toNat_glyphAddress]

end Sys2Proof.Machine
end

section
/-! SUPPORT. The decoder and the encoder (30_encoding.md R64 to R78): each undoes the other, the words that are no
instruction, and the rows of the opcode table. -/

namespace Sys2Proof

/-! ### Decode of encode -/

/-- The SYS words the table excludes are the only ones family 0 reads as CLS or RET (R69). -/
theorem decodeWord_encode_sys {nnn : Index} (h : (Instr.sys nnn).wellFormed = true) :
    decodeWord (encode (.sys nnn)) = .ok (.sys nnn) := by
  have hne : ∀ m : Index, nnn ≠ m → packIndex 0#4 nnn ≠ packIndex 0#4 m := by
    intro m hm he
    exact hm (by simpa using congrArg fieldNnn he)
  simp only [Instr.wellFormed, Bool.and_eq_true, bne_iff_ne] at h
  have hcls : packIndex 0#4 nnn ≠ 0x00E0#16 := hne 0x0E0 h.1
  have hret : packIndex 0#4 nnn ≠ 0x00EE#16 := hne 0x0EE h.2
  simp [encode, decodeWord, decodeFamily0, hcls, hret]

/-- The word of a well-formed instruction decodes to it: dispatch finds the family, and the fields are those packed. -/
theorem decodeWord_encode {i : Instr} (h : i.wellFormed = true) : decodeWord (encode i) = .ok i := by
  cases i with
  | cls | ret => rfl
  | sys nnn => exact decodeWord_encode_sys h
  | jp nnn | call nnn | ldI nnn | jpV0 nnn => simp [encode, decodeWord]
  | seImm x kk | sneImm x kk | ldImm x kk | addImm x kk | rnd x kk => simp [encode, decodeWord]
  | seReg x y i | sneReg x y i => simp [encode, decodeWord]
  | drw x y n => simp [encode, decodeWord]
  | ldReg x y | orReg x y | andReg x y | xorReg x y | addReg x y | subReg x y | shr x y | subnReg x y | shl x y =>
    simp [encode, decodeWord, decodeFamily8]
  | skp x | sknp x => simp [encode, decodeWord, decodeFamilyE]
  | ldVxDt x | ldVxK x | ldDtVx x | ldStVx x | addI x | ldF x | ldB x | ldMemVx x | ldVxMem x =>
    simp [encode, decodeWord, decodeFamilyF]

/-- Settles O1: two bytes in memory order are the word again, and the word decodes to its instruction. -/
theorem decodeOfEncodeIsTheInstruction : Obligations.DecodeOfEncodeIsTheInstruction := by
  unfold Obligations.DecodeOfEncodeIsTheInstruction
  intro i rest h
  simp [encodeBytes, decode, decodeWord_encode h, Except.map]

/-! ### Encode of decode -/

/-- Packing the fields of a word of family t under t gives the word back, in each of the three formats (R66). -/
theorem packIndex_of_family {op : Word} {t : BitVec 4} (h : (fieldT op).toNat = t.toNat) :
    packIndex t (fieldNnn op) = op :=
  BitVec.eq_of_toNat_eq h ▸ packIndex_fields op

theorem packByte_of_family {op : Word} {t : BitVec 4} {kk : Byte} (h : (fieldT op).toNat = t.toNat)
    (hkk : (fieldKk op).toNat = kk.toNat) : packByte t (fieldX op) kk = op :=
  BitVec.eq_of_toNat_eq h ▸ BitVec.eq_of_toNat_eq hkk ▸ packByte_fields op

theorem packNibbles_of_family {op : Word} {t n : BitVec 4} (h : (fieldT op).toNat = t.toNat)
    (hn : (fieldN op).toNat = n.toNat) : packNibbles t (fieldX op) (fieldY op) n = op :=
  BitVec.eq_of_toNat_eq h ▸ BitVec.eq_of_toNat_eq hn ▸ packNibbles_fields op

theorem encode_decodeFamily0 {op : Word} (ht : (fieldT op).toNat = 0x0) :
    encode (decodeFamily0 op) = op ∧ (decodeFamily0 op).wellFormed = true := by
  unfold decodeFamily0
  split
  · exact ⟨by simp [encode, *], rfl⟩
  · split
    · exact ⟨by simp [encode, *], rfl⟩
    · rename_i hcls hret
      have hop : packIndex 0 (fieldNnn op) = op := packIndex_of_family ht
      refine ⟨hop, ?_⟩
      simp only [Instr.wellFormed, Bool.and_eq_true, bne_iff_ne]
      exact ⟨fun hn => hcls (by rw [← hop, hn]; rfl), fun hn => hret (by rw [← hop, hn]; rfl)⟩

theorem encode_of_decodeFamily8 {op : Word} {i : Instr} (ht : (fieldT op).toNat = 0x8)
    (h : decodeFamily8 op = .ok i) : encode i = op ∧ i.wellFormed = true := by
  unfold decodeFamily8 at h
  split at h
  case h_10 => cases h
  all_goals
    cases h
    exact ⟨packNibbles_of_family ht ‹_›, rfl⟩

theorem encode_of_decodeFamilyE {op : Word} {i : Instr} (ht : (fieldT op).toNat = 0xE)
    (h : decodeFamilyE op = .ok i) : encode i = op ∧ i.wellFormed = true := by
  unfold decodeFamilyE at h
  split at h
  case h_3 => cases h
  all_goals
    cases h
    exact ⟨packByte_of_family ht ‹_›, rfl⟩

theorem encode_of_decodeFamilyF {op : Word} {i : Instr} (ht : (fieldT op).toNat = 0xF)
    (h : decodeFamilyF op = .ok i) : encode i = op ∧ i.wellFormed = true := by
  unfold decodeFamilyF at h
  split at h
  case h_10 => cases h
  all_goals
    cases h
    exact ⟨packByte_of_family ht ‹_›, rfl⟩

/-- Settles O2: each family keeps its top nibble and either all the other bits as operands or, under a secondary
dispatch, the low bits it compared. -/
theorem encodeOfDecodeIsTheWord : Obligations.EncodeOfDecodeIsTheWord := by
  unfold Obligations.EncodeOfDecodeIsTheWord
  intro op i h
  unfold decodeWord at h
  split at h
  case h_1 => cases h; exact encode_decodeFamily0 ‹_›
  case h_9 => exact encode_of_decodeFamily8 ‹_› h
  case h_15 => exact encode_of_decodeFamilyE ‹_› h
  case h_16 =>
    simp only [imp_false] at *
    have ht : (fieldT op).toNat = 0xF := by omega
    exact encode_of_decodeFamilyF ht h
  case h_2 | h_3 | h_11 | h_12 => cases h; exact ⟨packIndex_of_family ‹_›, rfl⟩
  case h_4 | h_5 | h_7 | h_8 | h_13 => cases h; exact ⟨packByte_of_family ‹_› rfl, rfl⟩
  case h_6 | h_10 | h_14 => cases h; exact ⟨packNibbles_of_family ‹_› rfl, rfl⟩

end Sys2Proof
end

section
/-! SUPPORT. The words that are no instruction (30_encoding.md R74) and the rows of the opcode table (R73). -/

namespace Sys2Proof

/-! ### The words that are no instruction -/

/-- R74: the unlisted words of families 8, E and F, as numbers. -/
def IllegalWord (op : Word) : Prop :=
  (op.toNat / 4096 = 0x8 ∧ op.toNat % 16 ∈ [0x8, 0x9, 0xA, 0xB, 0xC, 0xD, 0xF]) ∨
    (op.toNat / 4096 = 0xE ∧ op.toNat % 256 ∉ [0x9E, 0xA1]) ∨
    (op.toNat / 4096 = 0xF ∧ op.toNat % 256 ∉ [0x07, 0x0A, 0x15, 0x18, 0x1E, 0x29, 0x33, 0x55, 0x65])

theorem decodeFamily8_eq_error (op : Word) :
    decodeFamily8 op = .error (.malformedOpcode op) ↔ op.toNat % 16 ∈ [0x8, 0x9, 0xA, 0xB, 0xC, 0xD, 0xF] := by
  unfold decodeFamily8
  rw [toNat_fieldN]
  split
  case h_10 =>
    simp only [imp_false] at *
    simp only [List.mem_cons, List.not_mem_nil, or_false, true_iff]
    omega
  all_goals simp [*]

theorem decodeFamilyE_eq_error (op : Word) :
    decodeFamilyE op = .error (.malformedOpcode op) ↔ op.toNat % 256 ∉ [0x9E, 0xA1] := by
  unfold decodeFamilyE
  rw [toNat_fieldKk]
  split <;> simp_all

theorem decodeFamilyF_eq_error (op : Word) :
    decodeFamilyF op = .error (.malformedOpcode op) ↔
      op.toNat % 256 ∉ [0x07, 0x0A, 0x15, 0x18, 0x1E, 0x29, 0x33, 0x55, 0x65] := by
  unfold decodeFamilyF
  rw [toNat_fieldKk]
  split <;> simp_all

/-- Only the three families with a secondary dispatch refuse words (R74). -/
theorem decodeWord_eq_error_iff (op : Word) : decodeWord op = .error (.malformedOpcode op) ↔ IllegalWord op := by
  unfold decodeWord IllegalWord
  rw [toNat_fieldT]
  split
  case h_9 ht => simp [ht, decodeFamily8_eq_error]
  case h_15 ht => simp [ht, decodeFamilyE_eq_error]
  case h_16 =>
    simp only [imp_false] at *
    have ht : op.toNat / 4096 = 0xF := by omega
    simp [ht, decodeFamilyF_eq_error]
  all_goals simp [*]

/-- Settles O3: the refused words family by family, and a refusal always names its own word. -/
theorem illegalWordsAreThoseOfFamilies8EF : Obligations.IllegalWordsAreThoseOfFamilies8EF := by
  unfold Obligations.IllegalWordsAreThoseOfFamilies8EF
  intro op
  refine ⟨decodeWord_eq_error_iff op, ?_⟩
  cases h : decodeWord op with
  | error e => exact .inl (congrArg _ (decodeWord_error h))
  | ok i => exact .inr ⟨i, rfl⟩

/-! ### The rows of the opcode table -/

/-- Every instruction's word has the fixed bits of its row (R73). -/
theorem encode_and_tableMask (i : Instr) : encode i &&& tableMask i = tableMatch i := by
  cases i with
  | cls => exact Laws.TableRow.cls
  | ret => exact Laws.TableRow.ret
  | sys nnn => exact Laws.TableRow.sys nnn
  | jp nnn => exact Laws.TableRow.jp nnn
  | call nnn => exact Laws.TableRow.call nnn
  | seImm x kk => exact Laws.TableRow.seImm x kk
  | sneImm x kk => exact Laws.TableRow.sneImm x kk
  | seReg x y i => exact Laws.TableRow.seReg x y i
  | ldImm x kk => exact Laws.TableRow.ldImm x kk
  | addImm x kk => exact Laws.TableRow.addImm x kk
  | ldReg x y => exact Laws.TableRow.ldReg x y
  | orReg x y => exact Laws.TableRow.orReg x y
  | andReg x y => exact Laws.TableRow.andReg x y
  | xorReg x y => exact Laws.TableRow.xorReg x y
  | addReg x y => exact Laws.TableRow.addReg x y
  | subReg x y => exact Laws.TableRow.subReg x y
  | shr x y => exact Laws.TableRow.shr x y
  | subnReg x y => exact Laws.TableRow.subnReg x y
  | shl x y => exact Laws.TableRow.shl x y
  | sneReg x y i => exact Laws.TableRow.sneReg x y i
  | ldI nnn => exact Laws.TableRow.ldI nnn
  | jpV0 nnn => exact Laws.TableRow.jpV0 nnn
  | rnd x kk => exact Laws.TableRow.rnd x kk
  | drw x y n => exact Laws.TableRow.drw x y n
  | skp x => exact Laws.TableRow.skp x
  | sknp x => exact Laws.TableRow.sknp x
  | ldVxDt x => exact Laws.TableRow.ldVxDt x
  | ldVxK x => exact Laws.TableRow.ldVxK x
  | ldDtVx x => exact Laws.TableRow.ldDtVx x
  | ldStVx x => exact Laws.TableRow.ldStVx x
  | addI x => exact Laws.TableRow.addI x
  | ldF x => exact Laws.TableRow.ldF x
  | ldB x => exact Laws.TableRow.ldB x
  | ldMemVx x => exact Laws.TableRow.ldMemVx x
  | ldVxMem x => exact Laws.TableRow.ldVxMem x

/-- A match under the mask F000 fixes the family. -/
theorem toNat_fieldT_of_and_F000 {op m : Word} (h : op &&& 0xF000#16 = m) : (fieldT op).toNat = m.toNat / 4096 := by
  have := congrArg BitVec.toNat h
  rw [toNat_and_F000] at this
  rw [toNat_fieldT]
  omega

/-- A match under F00F fixes the family and the low nibble. -/
theorem fields_of_and_F00F {op m : Word} (h : op &&& 0xF00F#16 = m) :
    (fieldT op).toNat = m.toNat / 4096 ∧ (fieldN op).toNat = m.toNat % 16 := by
  have := congrArg BitVec.toNat h
  rw [toNat_and_F00F] at this
  rw [toNat_fieldT, toNat_fieldN]
  omega

/-- A match under F0FF fixes the family and the low byte. -/
theorem fields_of_and_F0FF {op m : Word} (h : op &&& 0xF0FF#16 = m) :
    (fieldT op).toNat = m.toNat / 4096 ∧ (fieldKk op).toNat = m.toNat % 256 := by
  have := congrArg BitVec.toNat h
  rw [toNat_and_F0FF] at this
  rw [toNat_fieldT, toNat_fieldKk]
  omega

/-- Family 0 decodes to its row but where the two whole words of CLS and RET take precedence (R69). -/
theorem tableMatch_decodeFamily0 (op : Word) :
    tableMatch (decodeFamily0 op) = 0x0000 ∨ op = 0x00E0 ∨ op = 0x00EE := by
  unfold decodeFamily0
  split
  · exact .inr (.inl ‹_›)
  · split
    · exact .inr (.inr ‹_›)
    · exact .inl rfl

/-- A word with the fixed bits of a row decodes to an instruction of that row, but for 00E0 and 00EE under row 0nnn. -/
theorem tableMatch_of_decodeWord {op : Word} {i : Instr} (hi : decodeWord op = .ok i) (j : Instr)
    (hj : op &&& tableMask j = tableMatch j) :
    tableMatch j = tableMatch i ∨ (tableMatch j = 0x0000 ∧ (op = 0x00E0 ∨ op = 0x00EE)) := by
  cases j with
  | cls | ret =>
    have hop : op = _ := (BitVec.and_allOnes (x := op)).symm.trans hj
    subst hop
    cases hi
    exact .inl rfl
  | sys nnn =>
    have ht := toNat_fieldT_of_and_F000 hj
    have hd : decodeWord op = .ok (decodeFamily0 op) := by simp [decodeWord, ht, tableMatch]
    cases hd.symm.trans hi
    exact (tableMatch_decodeFamily0 op).imp Eq.symm (And.intro rfl)
  | jp _ | call _ | seImm _ _ | sneImm _ _ | seReg _ _ _ | ldImm _ _ | addImm _ _ | sneReg _ _ _ | ldI _ | jpV0 _
  | rnd _ _ | drw _ _ _ =>
    have ht := toNat_fieldT_of_and_F000 hj
    simp only [decodeWord, ht, tableMatch] at hi
    cases hi
    exact .inl rfl
  | ldReg _ _ | orReg _ _ | andReg _ _ | xorReg _ _ | addReg _ _ | subReg _ _ | shr _ _ | subnReg _ _ | shl _ _ =>
    obtain ⟨ht, hn⟩ := fields_of_and_F00F hj
    simp only [decodeWord, decodeFamily8, ht, hn, tableMatch] at hi
    cases hi
    exact .inl rfl
  | skp _ | sknp _ =>
    obtain ⟨ht, hkk⟩ := fields_of_and_F0FF hj
    simp only [decodeWord, decodeFamilyE, ht, hkk, tableMatch] at hi
    cases hi
    exact .inl rfl
  | ldVxDt _ | ldVxK _ | ldDtVx _ | ldStVx _ | addI _ | ldF _ | ldB _ | ldMemVx _ | ldVxMem _ =>
    obtain ⟨ht, hkk⟩ := fields_of_and_F0FF hj
    simp only [decodeWord, decodeFamilyF, ht, hkk, tableMatch] at hi
    cases hi
    exact .inl rfl

/-- Settles O4: a decoded word is its instruction's word, which has the bits of its row; and decoding is a function, so
two rows that match one word are one row, but for the words family 0 takes out. -/
theorem decodedWordMatchesItsTableRowOnly : Obligations.DecodedWordMatchesItsTableRowOnly := by
  unfold Obligations.DecodedWordMatchesItsTableRowOnly
  intro op i hi
  obtain ⟨hop, -⟩ := encodeOfDecodeIsTheWord op i hi
  refine ⟨?_, tableMatch_of_decodeWord hi⟩
  conv => lhs; rw [← hop]
  exact encode_and_tableMask i

/-- Settles O5: dispatch computes each of the written out words. -/
theorem writtenOutWordsDecode : Obligations.WrittenOutWordsDecode := by
  unfold Obligations.WrittenOutWordsDecode
  decide

end Sys2Proof
end

section
/-! SUPPORT. Everything Execute can do (40_cycle.md R84): the fault of the instruction's row, the wait of an unanswered
Fx0A, or the state the completed instruction leaves. -/

namespace Sys2Proof.Machine

/-! ### The three outcomes of exec -/

/-- The state a completed instruction leaves (41_flow.md to 48_memory_transfer.md). It stands for exec only where the
instruction neither faults nor waits: `exec_of_completes`. -/
def State.completed (s : State) : Instr → State
  | .cls => (s.setFb Framebuffer.clear).advance 2
  | .ret => { s with pc := (s.stack[s.sp.val - 1]?).getD 0 + 2, sp := ⟨s.sp.val - 1, by omega⟩ }
  | .sys _ => s.advance 2
  | .jp nnn => s.setPc (nnn.setWidth 16)
  | .call nnn =>
    { s with
      stack := s.stack.setIfInBounds s.sp.val s.pc, sp := ⟨min 16 (s.sp.val + 1), by omega⟩, pc := nnn.setWidth 16 }
  | .seImm x kk => s.skipIf (s.readV x == kk)
  | .sneImm x kk => s.skipIf (s.readV x != kk)
  | .seReg x y _ => s.skipIf (s.readV x == s.readV y)
  | .ldImm x kk => (s.writeV x kk).advance 2
  | .addImm x kk => (s.writeV x (addResult (s.readV x) kk)).advance 2
  | .ldReg x y => (s.writeV x (s.readV y)).advance 2
  | .orReg x y => (s.writeV x (s.readV x ||| s.readV y)).advance 2
  | .andReg x y => (s.writeV x (s.readV x &&& s.readV y)).advance 2
  | .xorReg x y => (s.writeV x (s.readV x ^^^ s.readV y)).advance 2
  | .addReg x y =>
    ((s.writeV x (addResult (s.readV x) (s.readV y))).writeFlag (addCarry (s.readV x) (s.readV y))).advance 2
  | .subReg x y =>
    ((s.writeV x (subResult (s.readV x) (s.readV y))).writeFlag (subNoBorrow (s.readV x) (s.readV y))).advance 2
  | .shr x y =>
    ((s.writeV x (shrResult (s.shiftOperand x y))).writeFlag (shrOut (s.shiftOperand x y))).advance 2
  | .subnReg x y =>
    ((s.writeV x (subResult (s.readV y) (s.readV x))).writeFlag (subNoBorrow (s.readV y) (s.readV x))).advance 2
  | .shl x y =>
    ((s.writeV x (shlResult (s.shiftOperand x y))).writeFlag (shlOut (s.shiftOperand x y))).advance 2
  | .sneReg x y _ => s.skipIf (s.readV x != s.readV y)
  | .ldI nnn => (s.setI nnn).advance 2
  | .jpV0 nnn => s.setPc (offsetTarget nnn (s.readV 0))
  | .rnd x kk => (s.afterDraw.writeV x (s.randomByte &&& kk)).advance 2
  | .drw x y n => s.drawSprite x y n.val
  | .skp x => s.skipIf ((s.keyPressed (s.readV x)).getD false)
  | .sknp x => s.skipIf (!(s.keyPressed (s.readV x)).getD false)
  | .ldVxDt x => (s.writeV x s.dt).advance 2
  | .ldVxK x => (s.answered.writeV x ((s.keyIn.headD 0).setWidth 8)).advance 2
  | .ldDtVx x => (s.setDt (s.readV x)).advance 2
  | .ldStVx x => (s.setSt (s.readV x)).advance 2
  | .addI x =>
    ((s.setI (indexAddResult s.I (s.readV x))).writeFlag (indexAddCarry s.I (s.readV x))).advance 2
  | .ldF x => (s.setI (glyphAddress (s.readV x))).advance 2
  | .ldB x => (s.writeBlock s.I.toNat (decimalDigits (s.readV x))).advance 2
  | .ldMemVx x => (s.writeBlock s.I.toNat ((regsUpTo x).map s.readV)).advance 2
  | .ldVxMem x => (s.loadRegs (regsUpTo x)).advance 2

variable {s : State} {i : Instr} {k : ErrKind} {info : Word}

/-- The word of SYS nnn is 0nnn, so err.info is the operand (R183). -/
theorem encode_sys (nnn : Index) : encode (.sys nnn) = nnn.setWidth 16 := by
  apply BitVec.eq_of_toNat_eq
  rw [encode, toNat_packIndex, toNat_tableAddress]
  simp

/-- A key index has an entry exactly when it is below 16 (R151). -/
theorem State.keyPressed_of_lt {x : Reg} (h : ¬ (s.readV x).toNat > 15) :
    s.keyPressed (s.readV x) = some ((s.keyPressed (s.readV x)).getD false) := by
  rw [State.keyPressed, Vector.getElem?_eq_getElem (by omega)]
  rfl

theorem State.keyPressed_of_gt {x : Reg} (h : (s.readV x).toNat > 15) : s.keyPressed (s.readV x) = none := by
  rw [State.keyPressed, Vector.getElem?_eq_none (by omega)]

/-- A row of the fault table with one condition names its fault only where the condition holds (R184). -/
theorem of_row_eq_some {c : Prop} [Decidable c] {f g : ErrKind × Word} (h : (if c then some f else none) = some g) :
    c ∧ f.1 = g.1 ∧ f.2 = g.2 := by
  obtain ⟨hc, hf⟩ := Option.ite_none_right_eq_some.mp h
  cases hf
  exact ⟨hc, rfl, rfl⟩

theorem not_of_row_eq_none {c : Prop} [Decidable c] {f : ErrKind × Word} (h : (if c then some f else none) = none) :
    ¬ c := by
  simpa using h

/-- An instruction whose row names a fault raises it and does nothing else (R184, R190). -/
theorem exec_of_fault (h : Rules.faultIn s i = some (k, info)) : exec i s = .next (s.raise k (encode i) info) := by
  cases i with
  | sys nnn =>
    obtain ⟨hp, rfl, rfl⟩ := of_row_eq_some h
    simp only [exec, execSys, hp, encode_sys]
  | ret =>
    obtain ⟨hsp, rfl, rfl⟩ := of_row_eq_some h
    simp [exec, execRet, State.pop, hsp]
  | call nnn =>
    obtain ⟨hsp, rfl, rfl⟩ := of_row_eq_some h
    simp [exec, execCall, State.push, hsp]
  | drw x y n =>
    obtain ⟨hext, rfl, rfl⟩ := of_row_eq_some h
    rw [exec, execDrw, State.withExtent_eq, if_neg (by omega)]
  | ldB x =>
    obtain ⟨hext, rfl, rfl⟩ := of_row_eq_some h
    rw [exec, execLdB, State.withExtent_eq, if_neg (by omega)]
  | ldMemVx x =>
    obtain ⟨hext, rfl, rfl⟩ := of_row_eq_some h
    rw [exec, execLdMemVx, State.withExtent_eq, if_neg (by omega)]
  | ldVxMem x =>
    obtain ⟨hext, rfl, rfl⟩ := of_row_eq_some h
    rw [exec, execLdVxMem, State.withExtent_eq, if_neg (by omega)]
  | skp x =>
    obtain ⟨hkey, rfl, rfl⟩ := of_row_eq_some h
    simp only [exec, execSkp, State.keyPressed_of_gt hkey, State.raiseKeyIndex]
  | sknp x =>
    obtain ⟨hkey, rfl, rfl⟩ := of_row_eq_some h
    simp only [exec, execSknp, State.keyPressed_of_gt hkey, State.raiseKeyIndex]
  | _ => cases h

/-- Only Fx0A waits, and only with no answer there (R154). -/
theorem exists_ldVxK_of_waitsIn (h : Rules.waitsIn s i = true) : s.keyIn = [] ∧ ∃ x, i = .ldVxK x := by
  cases i with
  | ldVxK x => exact ⟨List.isEmpty_iff.mp h, x, rfl⟩
  | _ => cases h

theorem exec_of_waits (h : Rules.waitsIn s i = true) : exec i s = .next s.await := by
  obtain ⟨hin, x, rfl⟩ := exists_ldVxK_of_waitsIn h
  rw [exec, execLdVxK, hin]

/-- An instruction that neither faults nor waits completes. -/
theorem exec_of_completes (hf : Rules.faultIn s i = none) (hw : Rules.waitsIn s i = false) :
    exec i s = .next (s.completed i) := by
  cases i with
  | sys nnn =>
    cases hp : s.cfg.sysPolicy with
    | nop => simp only [exec, execSys, hp, State.completed]
    | fault => exact absurd hp (not_of_row_eq_none hf)
  | ret =>
    have hno := not_of_row_eq_none hf
    have hsp : 0 < s.sp.val := by omega
    rw [exec, execRet, State.pop, dif_pos hsp, State.completed, Vector.getElem?_eq_getElem (by omega)]
    rfl
  | call nnn =>
    have hno := not_of_row_eq_none hf
    have hsp : s.sp.val < 16 := by omega
    have hset : s.stack.setIfInBounds s.sp.val s.pc = s.stack.set s.sp.val s.pc hsp := by
      simp [Vector.setIfInBounds, Vector.set, Array.setIfInBounds, hsp]
    have hmin : min 16 (s.sp.val + 1) = s.sp.val + 1 := by omega
    simp only [exec, execCall, State.push, dif_pos hsp, State.completed, hset, hmin]
    rfl
  | drw x y n =>
    have hno := not_of_row_eq_none hf
    rw [exec, execDrw, State.withExtent_eq, if_pos (by omega)]
    rfl
  | ldB x =>
    have hno := not_of_row_eq_none hf
    rw [exec, execLdB, State.withExtent_eq, if_pos (by omega)]
    rfl
  | ldMemVx x =>
    have hno := not_of_row_eq_none hf
    rw [exec, execLdMemVx, State.withExtent_eq, if_pos (by omega)]
    rfl
  | ldVxMem x =>
    have hno := not_of_row_eq_none hf
    rw [exec, execLdVxMem, State.withExtent_eq, if_pos (by omega)]
    rfl
  | skp x =>
    have hno := not_of_row_eq_none hf
    rw [exec, execSkp, State.keyPressed_of_lt hno]
    rfl
  | sknp x =>
    have hno := not_of_row_eq_none hf
    rw [exec, execSknp, State.keyPressed_of_lt hno]
    rfl
  | ldVxK x =>
    cases hin : s.keyIn with
    | nil => simp [Rules.waitsIn, hin] at hw
    | cons k rest => simp only [exec, execLdVxK, State.completed, hin, List.headD_cons]
  | _ => rfl

/-- Everything Execute can do, said once: a next state always, by the fault of the row, the wait, or completion. -/
theorem exec_cases (i : Instr) (s : State) :
    ∃ t, exec i s = .next t ∧
      ((∃ k info, Rules.faultIn s i = some (k, info) ∧ t = s.raise k (encode i) info) ∨
        (Rules.faultIn s i = none ∧ Rules.waitsIn s i = true ∧ t = s.await) ∨
        (Rules.faultIn s i = none ∧ Rules.waitsIn s i = false ∧ t = s.completed i)) := by
  cases hf : Rules.faultIn s i with
  | some f => exact ⟨_, exec_of_fault hf, .inl ⟨_, _, rfl, rfl⟩⟩
  | none =>
    cases hw : Rules.waitsIn s i with
    | true => exact ⟨_, exec_of_waits hw, .inr (.inl ⟨rfl, rfl, rfl⟩)⟩
    | false => exact ⟨_, exec_of_completes hf hw, .inr (.inr ⟨rfl, rfl, rfl⟩)⟩

/-- No row of the fault table names the kind that stands for no fault. -/
theorem kind_ne_none_of_faultIn (h : Rules.faultIn s i = some (k, info)) : k ≠ .none := by
  cases i with
  | sys _ | ret | call _ | drw _ _ _ | ldB _ | ldMemVx _ | ldVxMem _ | skp _ | sknp _ =>
    obtain ⟨-, rfl, -⟩ := of_row_eq_some h
    exact ErrKind.noConfusion
  | _ => cases h

/-! ### What completion leaves alone -/

/-- No completed instruction writes run, err, the parameters, the key latch or the record of notifications. -/
theorem State.completed_constants (s : State) (i : Instr) :
    (s.completed i).run = s.run ∧ (s.completed i).err = s.err ∧ (s.completed i).cfg = s.cfg ∧
      (s.completed i).keys = s.keys ∧ (s.completed i).frames = s.frames := by
  cases i with
  | ldB x | ldMemVx x | ldVxMem x => simp [State.completed]
  | _ => exact ⟨rfl, rfl, rfl, rfl, rfl⟩

@[simp] theorem State.completed_run (s : State) (i : Instr) : (s.completed i).run = s.run :=
  (s.completed_constants i).1

@[simp] theorem State.completed_err (s : State) (i : Instr) : (s.completed i).err = s.err :=
  (s.completed_constants i).2.1

@[simp] theorem State.completed_cfg (s : State) (i : Instr) : (s.completed i).cfg = s.cfg :=
  (s.completed_constants i).2.2.1

/-! ### The fault table -/

/-- Settles O12: a fault of the row is the raise, and the other two outcomes of exec keep run and err. -/
theorem instructionsRaiseExactlyTheirFaults : Obligations.InstructionsRaiseExactlyTheirFaults := by
  unfold Obligations.InstructionsRaiseExactlyTheirFaults
  intro i s
  refine ⟨fun k info h => exec_of_fault h, fun h => ?_⟩
  obtain ⟨t, ht, ⟨k, info, hf, -⟩ | ⟨-, -, rfl⟩ | ⟨-, -, rfl⟩⟩ := exec_cases i s
  · cases h.symm.trans hf
  · exact ⟨_, ht, rfl, rfl⟩
  · exact ⟨_, ht, s.completed_run i, s.completed_err i⟩

/-- Settles O47: in each of the four instructions the row of the fault table names AddressViolation(0x1000). -/
theorem extentPastMemoryFaultsWithNoEffect : Obligations.ExtentPastMemoryFaultsWithNoEffect := by
  unfold Obligations.ExtentPastMemoryFaultsWithNoEffect
  intro i s h
  suffices hf : Rules.faultIn s i = some (.addressViolation, 0x1000) from exec_of_fault hf
  obtain ⟨x, y, n, rfl, hn, hext⟩ | ⟨x, rfl, hext⟩ | ⟨x, rfl | rfl, hext⟩ := h
  · exact if_pos ⟨hn, hext⟩
  all_goals exact if_pos hext

end Sys2Proof.Machine
end

section
/-! SUPPORT. The frame of every instruction (10_state.md R15, R19, R46): pc, the registers, the special state and memory
after an instruction, whichever way it ends. -/

namespace Sys2Proof.Machine

variable (s : State) {i : Instr}

/-! ### pc (R19) -/

/-- A skip on the condition of its row moves pc by 4 or by 2 as the row has it. -/
theorem State.skipIf_pc_of_skipCondition {c : Bool} (h : Rules.skipCondition s i = some c) :
    (s.skipIf c).pc = if Rules.skipCondition s i = some true then s.pc + 4 else s.pc + 2 := by
  rw [h]
  cases c <;> rfl

/-- pc after a completed instruction is the table's. -/
theorem State.completed_pc (hf : Rules.faultIn s i = none) : (s.completed i).pc = Rules.pcAfter s i := by
  cases i with
  | seImm x kk | sneImm x kk | seReg x y n | sneReg x y n => exact s.skipIf_pc_of_skipCondition rfl
  | skp x => exact s.skipIf_pc_of_skipCondition (State.keyPressed_of_lt (not_of_row_eq_none hf))
  | sknp x =>
    have hkey := State.keyPressed_of_lt (not_of_row_eq_none hf)
    exact s.skipIf_pc_of_skipCondition (congrArg (Option.map (!·)) hkey)
  | jpV0 nnn =>
    apply BitVec.eq_of_toNat_eq
    have hlt := nnn.isLt
    have hv := (s.readV 0).isLt
    rw [State.completed, State.setPc_pc, toNat_offsetTarget, Rules.pcAfter, BitVec.toNat_ofNat]
    omega
  | ldB x | ldMemVx x => exact congrArg (· + 2) (State.writeBlock_pc ..)
  | ldVxMem x => exact congrArg (· + 2) (State.loadRegs_pc ..)
  | _ => rfl

/-- Settles O18: completion follows the table, and a fault keeps pc. -/
theorem pcAfterEachInstruction : Obligations.PcAfterEachInstruction := by
  unfold Obligations.PcAfterEachInstruction
  intro i s
  obtain ⟨t, ht, ⟨k, info, hf, rfl⟩ | ⟨hf, hw, rfl⟩ | ⟨hf, hw, rfl⟩⟩ := exec_cases i s
  · exact ⟨_, ht, fun h => (by cases hf.symm.trans h), fun _ => rfl⟩
  · exact ⟨_, ht, fun _ h => (by cases hw.symm.trans h), fun _ => rfl⟩
  · exact ⟨_, ht, fun _ _ => s.completed_pc hf, fun h => absurd hf h⟩

/-! ### The registers (R15) -/

/-- A result and a flag leave every register alone but Vx and VF (R120). -/
theorem State.readV_writeFlag_writeV (x r : Reg) (v : Byte) (b : Bool) (hx : r ≠ x) (hvf : r ≠ Reg.vf) :
    ((s.writeV x v).writeFlag b).readV r = s.readV r := by
  rw [State.readV_writeFlag, if_neg hvf, State.readV_writeV_of_ne s v hx]

theorem State.readV_drawSprite_of_ne (x y : Reg) (n : Nat) {r : Reg} (h : r ≠ Reg.vf) :
    (s.drawSprite x y n).readV r = s.readV r := by
  classical
  rw [State.readV_drawSprite, if_neg h]

theorem State.readV_completed {r : Reg} (h : Rules.writesV i r = false) : (s.completed i).readV r = s.readV r := by
  cases i with
  | ldImm x _ | addImm x _ | rnd x _ | ldReg x _ | orReg x _ | andReg x _ | xorReg x _ | ldVxDt x | ldVxK x =>
    exact State.readV_writeV_of_ne _ _ (beq_eq_false_iff_ne.mp h)
  | addReg x _ | subReg x _ | subnReg x _ | shr x _ | shl x _ =>
    obtain ⟨hx, hvf⟩ := Bool.or_eq_false_iff.mp h
    exact State.readV_writeFlag_writeV s x r _ _ (beq_eq_false_iff_ne.mp hx) (beq_eq_false_iff_ne.mp hvf)
  | addI x => exact State.readV_writeV_of_ne _ _ (beq_eq_false_iff_ne.mp h)
  | drw x y n => exact s.readV_drawSprite_of_ne x y n.val (beq_eq_false_iff_ne.mp h)
  | ldVxMem x => exact (s.readV_loadRegs x r).trans (if_neg (of_decide_eq_false h))
  | ldB x | ldMemVx x => exact State.readV_writeBlock ..
  | _ => rfl

/-- Settles O19: a fault and a wait write no register, a completed instruction those of its row. -/
theorem instructionsWriteOnlyTheirRegisters : Obligations.InstructionsWriteOnlyTheirRegisters := by
  unfold Obligations.InstructionsWriteOnlyTheirRegisters
  intro i s
  obtain ⟨t, ht, ⟨k, info, -, rfl⟩ | ⟨-, -, rfl⟩ | ⟨-, -, rfl⟩⟩ := exec_cases i s
  · exact ⟨_, ht, fun _ _ => rfl⟩
  · exact ⟨_, ht, fun _ _ => rfl⟩
  · exact ⟨_, ht, fun _ => s.readV_completed⟩

/-! ### The special state -/

theorem State.completed_I (hldI : ∀ n, i ≠ .ldI n) (haddI : ∀ x, i ≠ .addI x) (hldF : ∀ x, i ≠ .ldF x) :
    (s.completed i).I = s.I := by
  cases i with
  | ldI n => exact absurd rfl (hldI n)
  | addI x => exact absurd rfl (haddI x)
  | ldF x => exact absurd rfl (hldF x)
  | ldB x | ldMemVx x => exact State.writeBlock_I ..
  | ldVxMem x => exact State.loadRegs_I ..
  | _ => rfl

theorem State.completed_stack (h : ∀ n, i ≠ .call n) : (s.completed i).stack = s.stack := by
  cases i with
  | call n => exact absurd rfl (h n)
  | ldB x | ldMemVx x => exact State.writeBlock_stack ..
  | ldVxMem x => exact State.loadRegs_stack ..
  | _ => rfl

theorem State.completed_sp (hcall : ∀ n, i ≠ .call n) (hret : i ≠ .ret) : (s.completed i).sp = s.sp := by
  cases i with
  | call n => exact absurd rfl (hcall n)
  | ret => exact absurd rfl hret
  | ldB x | ldMemVx x => exact State.writeBlock_sp ..
  | ldVxMem x => exact State.loadRegs_sp ..
  | _ => rfl

theorem State.completed_dt (h : ∀ x, i ≠ .ldDtVx x) : (s.completed i).dt = s.dt := by
  cases i with
  | ldDtVx x => exact absurd rfl (h x)
  | ldB x | ldMemVx x => exact State.writeBlock_dt ..
  | ldVxMem x => exact State.loadRegs_dt ..
  | _ => rfl

theorem State.completed_st (h : ∀ x, i ≠ .ldStVx x) : (s.completed i).st = s.st := by
  cases i with
  | ldStVx x => exact absurd rfl (h x)
  | ldB x | ldMemVx x => exact State.writeBlock_st ..
  | ldVxMem x => exact State.loadRegs_st ..
  | _ => rfl

theorem State.completed_fb (hcls : i ≠ .cls) (hdrw : ∀ x y n, i ≠ .drw x y n) : (s.completed i).fb = s.fb := by
  cases i with
  | cls => exact absurd rfl hcls
  | drw x y n => exact absurd rfl (hdrw x y n)
  | ldB x | ldMemVx x => exact State.writeBlock_fb ..
  | ldVxMem x => exact State.loadRegs_fb ..
  | _ => rfl

theorem State.completed_dirty (h : ∀ x y n, i ≠ .drw x y n) : (s.completed i).dirty = s.dirty := by
  cases i with
  | drw x y n => exact absurd rfl (h x y n)
  | ldB x | ldMemVx x => exact State.writeBlock_dirty ..
  | ldVxMem x => exact State.loadRegs_dirty ..
  | _ => rfl

theorem State.completed_randomInput (h : ∀ x kk, i ≠ .rnd x kk) :
    (s.completed i).randIn = s.randIn ∧ (s.completed i).randDrawn = s.randDrawn := by
  cases i with
  | rnd x kk => exact absurd rfl (h x kk)
  | ldB x | ldMemVx x => exact ⟨State.writeBlock_randIn .., State.writeBlock_randDrawn ..⟩
  | ldVxMem x => exact ⟨State.loadRegs_randIn .., State.loadRegs_randDrawn ..⟩
  | _ => exact ⟨rfl, rfl⟩

theorem State.completed_keyRead (h : ∀ x, i ≠ .ldVxK x) :
    (s.completed i).keyIn = s.keyIn ∧ (s.completed i).waiting = s.waiting := by
  cases i with
  | ldVxK x => exact absurd rfl (h x)
  | ldB x | ldMemVx x => exact ⟨State.writeBlock_keyIn .., State.writeBlock_waiting ..⟩
  | ldVxMem x => exact ⟨State.loadRegs_keyIn .., State.loadRegs_waiting ..⟩
  | _ => exact ⟨rfl, rfl⟩

/-- Settles O20: a fault writes only run and err, a wait only the flag of Fx0A, and completion only the fields of the
instructions named. -/
theorem specialStateHasOnlyItsWriters : Obligations.SpecialStateHasOnlyItsWriters := by
  unfold Obligations.SpecialStateHasOnlyItsWriters
  intro i s
  obtain ⟨t, ht, ⟨k, info, -, rfl⟩ | ⟨-, hw, rfl⟩ | ⟨-, -, rfl⟩⟩ := exec_cases i s
  · exact ⟨_, ht, by simp⟩
  · obtain ⟨-, x, rfl⟩ := exists_ldVxK_of_waitsIn hw
    exact ⟨_, ht, by simp⟩
  · obtain ⟨-, -, hcfg, hkeys, hframes⟩ := s.completed_constants i
    exact ⟨_, ht, s.completed_I, s.completed_stack, s.completed_sp, s.completed_dt, s.completed_st, s.completed_fb,
      s.completed_dirty, s.completed_randomInput, s.completed_keyRead, hkeys, hframes, hcfg⟩

/-! ### Memory (R46, R50) -/

theorem State.readByte_completed_ldB (x : Reg) {a : Nat} (h : a < s.I.toNat ∨ s.I.toNat + 2 < a) :
    (s.completed (.ldB x)).readByte a = s.readByte a := by
  refine s.readByte_writeBlock_of_outside (h.imp_right fun h => ?_)
  rw [length_decimalDigits]
  omega

theorem State.readByte_completed_ldMemVx (x : Reg) {a : Nat} (h : a < s.I.toNat ∨ s.I.toNat + x.val < a) :
    (s.completed (.ldMemVx x)).readByte a = s.readByte a := by
  refine s.readByte_writeBlock_of_outside (h.imp_right fun h => ?_)
  rw [List.length_map, length_regsUpTo]
  omega

theorem State.readByte_completed (hldB : ∀ x, i ≠ .ldB x) (hldMemVx : ∀ x, i ≠ .ldMemVx x) (a : Nat) :
    (s.completed i).readByte a = s.readByte a := by
  cases i with
  | ldB x => exact absurd rfl (hldB x)
  | ldMemVx x => exact absurd rfl (hldMemVx x)
  | ldVxMem x => exact State.readByte_loadRegs ..
  | _ => rfl

/-- Settles O21: only the two stores write memory, and only the block they store. -/
theorem memoryIsWrittenOnlyWhereStored : Obligations.MemoryIsWrittenOnlyWhereStored := by
  unfold Obligations.MemoryIsWrittenOnlyWhereStored
  intro i s
  obtain ⟨t, ht, ⟨k, info, -, rfl⟩ | ⟨-, -, rfl⟩ | ⟨-, -, rfl⟩⟩ := exec_cases i s
  · exact ⟨_, ht, fun _ _ _ _ => rfl, fun _ _ _ _ => rfl, fun _ _ _ => rfl⟩
  · exact ⟨_, ht, fun _ _ _ _ => rfl, fun _ _ _ _ => rfl, fun _ _ _ => rfl⟩
  · refine ⟨_, ht, ?_, ?_, s.readByte_completed⟩
    · rintro x rfl a
      exact s.readByte_completed_ldB x
    · rintro x rfl a
      exact s.readByte_completed_ldMemVx x

end Sys2Proof.Machine
end

section
/-! SUPPORT. Everything a step can do, in the terms of the fault table (40_cycle.md R81 to R89): a fault, a wait, or a
completed instruction with its tick and its notification. -/

namespace Sys2Proof.Machine

variable {s t : State} {i : Instr}

/-- What err says of a fault in the step from s (R191, D30): some fault, with the word fetched; where none was fetched,
AddressViolation with opcode 0 and the address. -/
structure State.FaultRecord (s : State) (k : ErrKind) (op info : Word) : Prop where
  kind : k ≠ .none
  fetched : ∀ w, s.fetch = .ok w → op = w
  unfetched : ∀ bad, s.fetch = .error bad → k = .addressViolation ∧ op = 0 ∧ info = bad

theorem State.FaultRecord.of_beginStep {k : ErrKind} {op info : Word} (h : s.beginStep.FaultRecord k op info) :
    s.FaultRecord k op info :=
  ⟨h.kind, h.fetched, h.unfetched⟩

/-- An instruction decoded at pc has there its own word. -/
theorem State.fetch_of_fetchDecode (hd : s.fetchDecode = .ok i) : s.fetch = .ok (encode i) := by
  obtain ⟨bad, -, hd'⟩ | ⟨op, hfetch, ⟨e, -, hd'⟩ | ⟨j, hj, hd'⟩⟩ := s.fetchDecode_cases
  · cases hd'.symm.trans hd
  · cases hd'.symm.trans hd
  · cases hd'.symm.trans hd
    rw [hfetch, (encodeOfDecodeIsTheWord op i hj).1]

/-- The exceptions of fetch and decode (R82, R83). -/
theorem State.raise_of_fetchDecode_error (h : s.fetchDecode = .error t) :
    ∃ k op info, s.FaultRecord k op info ∧ t = s.raise k op info := by
  obtain ⟨bad, hfetch, hd⟩ | ⟨op, hfetch, ⟨e, -, hd⟩ | ⟨i, -, hd⟩⟩ := s.fetchDecode_cases
  · cases hd.symm.trans h
    refine ⟨_, _, _, ⟨ErrKind.noConfusion, fun w hw => ?_, fun b hb => ?_⟩, rfl⟩
    · cases hfetch.symm.trans hw
    · cases hfetch.symm.trans hb
      exact ⟨rfl, rfl, rfl⟩
  · cases hd.symm.trans h
    refine ⟨_, _, _, ⟨ErrKind.noConfusion, fun w hw => ?_, fun b hb => ?_⟩, rfl⟩
    · cases hfetch.symm.trans hw
      rfl
    · cases hfetch.symm.trans hb
  · cases hd.symm.trans h

/-- The exceptions of Execute (R184). -/
theorem State.faultRecord_of_faultIn {k : ErrKind} {info : Word} (hd : s.fetchDecode = .ok i)
    (hf : Rules.faultIn s i = some (k, info)) : s.FaultRecord k (encode i) info := by
  have hfetch := State.fetch_of_fetchDecode hd
  refine ⟨kind_ne_none_of_faultIn hf, fun w hw => ?_, fun b hb => ?_⟩
  · cases hfetch.symm.trans hw
    rfl
  · cases hfetch.symm.trans hb

/-- The wait is over once an instruction completes (R154). -/
theorem State.completed_waiting (hw : s.waiting = false) (i : Instr) : (s.completed i).waiting = false := by
  by_cases hread : ∃ x, i = .ldVxK x
  · obtain ⟨x, rfl⟩ := hread
    rfl
  · exact (s.completed_keyRead fun x hx => hread ⟨x, hx⟩).2.trans hw

/-- Everything a step can do. -/
theorem step_cases (h : step s = .next t) :
    s.run = .running ∧
      ((∃ k op info, s.FaultRecord k op info ∧ t = s.beginStep.raise k op info) ∨
        (∃ x, s.fetchDecode = .ok (.ldVxK x) ∧ t = s.beginStep.await) ∨
        (∃ i, s.fetchDecode = .ok i ∧ Rules.faultIn s.beginStep i = none ∧
          t = (s.beginStep.completed i).tick.notify)) := by
  obtain ⟨hrun, hd | ⟨i, u, hd, hu, hend⟩⟩ := step_next h
  · obtain ⟨k, op, info, hrec, rfl⟩ := State.raise_of_fetchDecode_error hd
    exact ⟨hrun, .inl ⟨k, op, info, hrec.of_beginStep, rfl⟩⟩
  · refine ⟨hrun, ?_⟩
    obtain ⟨u', hu', ⟨k, info, hf, rfl⟩ | ⟨hf, hw, rfl⟩ | ⟨hf, hw, rfl⟩⟩ := exec_cases i s.beginStep
    all_goals cases hu'.symm.trans hu
    · obtain ⟨-, rfl⟩ | ⟨⟨hr, -⟩, -⟩ := hend
      · exact .inl ⟨k, _, info, (State.faultRecord_of_faultIn hd hf).of_beginStep, rfl⟩
      · cases hr
    · obtain ⟨-, x, rfl⟩ := exists_ldVxK_of_waitsIn hw
      obtain ⟨-, rfl⟩ | ⟨⟨-, hr⟩, -⟩ := hend
      · exact .inr (.inl ⟨x, (s.fetchDecode_beginStep_ok _).mp hd, rfl⟩)
      · cases hr
    · obtain ⟨hr | hr, -⟩ | ⟨-, rfl⟩ := hend
      · cases hrun.symm.trans ((s.beginStep.completed_run i).symm.trans hr)
      · cases (State.completed_waiting rfl i).symm.trans hr
      · exact .inr (.inr ⟨i, (s.fetchDecode_beginStep_ok i).mp hd, hf, rfl⟩)

/-- A step that ends running and not waiting is the third of these. -/
theorem step_completed (h : step s = .next t) (hrun : t.run = .running) (hwait : t.waiting = false) :
    ∃ i, s.fetchDecode = .ok i ∧ t = (s.beginStep.completed i).tick.notify := by
  obtain ⟨-, ⟨k, op, info, -, rfl⟩ | ⟨x, -, rfl⟩ | ⟨i, hd, -, rfl⟩⟩ := step_cases h
  · cases hrun
  · cases hwait
  · exact ⟨i, hd, rfl⟩

/-- A step that ends halted is the first. -/
theorem step_halts (h : step s = .next t) (hrun : t.run = .halted) :
    ∃ k op info, s.FaultRecord k op info ∧ t = s.beginStep.raise k op info := by
  obtain ⟨hs, hfault | ⟨x, -, rfl⟩ | ⟨i, -, -, rfl⟩⟩ := step_cases h
  · exact hfault
  · cases hs.symm.trans hrun
  · cases hs.symm.trans ((s.beginStep.completed_run i).symm.trans hrun)

/-! ### The step, forwards -/

theorem finishStep_of_stops (h : t.run = .halted ∨ t.waiting = true) : finishStep (.next t) = .next t := if_pos h

theorem finishStep_of_completes (hrun : t.run = .running) (hwait : t.waiting = false) :
    finishStep (.next t) = .next t.tick.notify := by
  refine if_neg ?_
  rintro (h | h)
  · cases hrun.symm.trans h
  · cases hwait.symm.trans h

theorem step_of_fetchDecode_error (hrun : s.run = .running) (hd : s.beginStep.fetchDecode = .error t) :
    step s = .next t := by
  simp [step, hrun, hd]

theorem State.fetchDecode_of_fetch_error {bad : Word} (hf : s.fetch = .error bad) :
    s.fetchDecode = .error (s.raise .addressViolation 0 bad) := by
  simp [State.fetchDecode, hf]

theorem State.fetchDecode_of_malformed {op : Word} {e : DecodeError} (hf : s.fetch = .ok op)
    (hd : decodeWord op = .error e) : s.fetchDecode = .error (s.raise .malformedOpcode op op) := by
  simp [State.fetchDecode, hf, hd]

theorem State.fetchDecode_of_decodeWord {op : Word} (hf : s.fetch = .ok op) (hd : decodeWord op = .ok i) :
    s.fetchDecode = .ok i := by
  simp [State.fetchDecode, hf, hd]

theorem step_of_fetch_error {bad : Word} (hrun : s.run = .running) (hf : s.fetch = .error bad) :
    step s = .next (s.beginStep.raise .addressViolation 0 bad) :=
  step_of_fetchDecode_error hrun (State.fetchDecode_of_fetch_error (s := s.beginStep) hf)

theorem step_of_malformed {op : Word} {e : DecodeError} (hrun : s.run = .running) (hf : s.fetch = .ok op)
    (hd : decodeWord op = .error e) : step s = .next (s.beginStep.raise .malformedOpcode op op) :=
  step_of_fetchDecode_error hrun (State.fetchDecode_of_malformed (s := s.beginStep) hf hd)

/-! ### Fetch -/

theorem State.fetch_of_pc_lt (h : s.pc.toNat < 0xFFF) :
    s.fetch = .ok (wordOfBytes (s.readByte s.pc.toNat) (s.readByte (s.pc.toNat + 1))) := by
  obtain ⟨-, hf⟩ | ⟨hle, -⟩ := s.fetch_cases
  · exact hf
  · omega

/-- The lowest out-of-range address of a fetch: pc itself, or the byte after 0xFFF (R82). -/
theorem firstBadAddress_of_pc {pc : Word} (h : 0xFFF ≤ pc.toNat) :
    firstBadAddress pc.toNat = if pc.toNat > 0xFFF then pc else 0x1000 := by
  rw [firstBadAddress, memSize]
  split
  · rw [Nat.max_eq_left (by omega), BitVec.ofNat_toNat, BitVec.setWidth_eq]
  · rw [Nat.max_eq_right (by omega)]
    rfl

/-- Settles O7: the two sides of the range check, and the address a failed fetch reports. -/
theorem fetchIsBigEndianAndRangeChecked : Obligations.FetchIsBigEndianAndRangeChecked := by
  unfold Obligations.FetchIsBigEndianAndRangeChecked
  intro s
  refine ⟨fun h => ⟨_, State.fetch_of_pc_lt (by omega), toNat_wordOfBytes _ _⟩, fun h => ?_, fun h => ?_, fun bad h => ?_⟩
  · rw [State.fetch_of_le_pc (by omega), firstBadAddress_of_pc (by omega), if_neg (by omega)]
  · rw [State.fetch_of_le_pc (by omega), firstBadAddress_of_pc (by omega), if_pos h]
  · exact ⟨_, State.fetchDecode_of_fetch_error h, rfl, rfl⟩

/-! ### The obligations about a step -/

/-- Settles O6: after exec, the end of the step ticks and notifies unless the instruction faulted or waits. -/
theorem stepRunsTheDecodedInstruction : Obligations.StepRunsTheDecodedInstruction := by
  unfold Obligations.StepRunsTheDecodedInstruction
  intro s i hrun hpc hdec
  have hd : s.beginStep.fetchDecode = .ok i :=
    State.fetchDecode_of_decodeWord (State.fetch_of_pc_lt (show s.pc.toNat < 0xFFF by omega)) hdec
  obtain ⟨t, ht, -⟩ := exec_cases i s.beginStep
  refine ⟨t, ht, fun ⟨hr, hw⟩ => ?_, fun hstop => ?_⟩
  · rw [step_of_fetchDecode hrun hd, ht, finishStep_of_completes hr hw]
    rfl
  · rw [step_of_fetchDecode hrun hd, ht, finishStep_of_stops hstop]

/-- Settles O8: the fetch fails, and the step is the raise with no opcode. -/
theorem unfetchablePcHalts : Obligations.UnfetchablePcHalts := by
  unfold Obligations.UnfetchablePcHalts
  intro s hrun hpc
  rw [step_of_fetch_error hrun (State.fetch_of_le_pc (by omega)), firstBadAddress_of_pc (by omega)]
  rfl

/-- Settles O9: an illegal word is refused by the decoder, before any register is read. -/
theorem illegalWordHalts : Obligations.IllegalWordHalts := by
  unfold Obligations.IllegalWordHalts
  intro s op hrun hpc hop hill
  have hfetch : s.fetch = .ok op := hop ▸ State.fetch_of_pc_lt (by omega)
  exact step_of_malformed hrun hfetch ((decodeWord_eq_error_iff op).mpr hill)

/-- Settles O10: `step` looks at run first. -/
theorem haltedMachineHasNoStep : Obligations.HaltedMachineHasNoStep := by
  unfold Obligations.HaltedMachineHasNoStep
  intro s h
  simp [step, h]

/-- Settles O11: a step that halts is one raise at its start. -/
theorem faultChangesOnlyRunAndErr : Obligations.FaultChangesOnlyRunAndErr := by
  unfold Obligations.FaultChangesOnlyRunAndErr
  intro s t h hrun
  obtain ⟨k, op, info, hrec, rfl⟩ := step_halts h hrun
  exact ⟨rfl, hrec.kind, rfl, hrec.fetched, hrec.unfetched⟩

/-- Settles O14: dirty is cleared at the start of the step, set by DRW alone, and handed over by the notification. -/
theorem hostIsToldDirtyExactlyForDraws : Obligations.HostIsToldDirtyExactlyForDraws := by
  unfold Obligations.HostIsToldDirtyExactlyForDraws
  intro s u h hrun hwait
  obtain ⟨i, hd, rfl⟩ := step_completed h hrun hwait
  obtain ⟨-, -, -, -, hframes⟩ := s.beginStep.completed_constants i
  refine ⟨i, (s.beginStep.completed i).dirty, hd, ?_, rfl, ?_⟩
  · rw [State.notify_frames, State.tick_dirty, State.tick_frames, hframes, State.beginStep_frames]
  · by_cases hdrw : ∃ x y n, i = .drw x y n
    · refine iff_of_true ?_ hdrw
      obtain ⟨x, y, n, rfl⟩ := hdrw
      rfl
    · have hclean : (s.beginStep.completed i).dirty = false :=
        s.beginStep.completed_dirty fun x y n hi => hdrw ⟨x, y, n, hi⟩
      simp [hclean, hdrw]

/-- Settles O15: the tick takes one from what the instruction left in each timer, and only LD DT and LD ST leave there
anything new. -/
theorem timersAtTheEndOfAStep : Obligations.TimersAtTheEndOfAStep := by
  unfold Obligations.TimersAtTheEndOfAStep
  intro s u i hi h hrun hwait
  obtain ⟨j, hj, rfl⟩ := step_completed h hrun hwait
  cases hi.symm.trans hj
  simp only [State.notify_dt, State.notify_st, State.tick_dt, State.tick_st, toNat_tickTimer, State.readV_notify,
    State.readV_tick]
  refine ⟨?_, fun hne => ?_, ?_, fun hne => ?_, ?_⟩
  · rintro x rfl
    rfl
  · rw [State.completed_dt _ hne, State.beginStep_dt]
  · rintro x rfl
    rfl
  · rw [State.completed_st _ hne, State.beginStep_st]
  · rintro x rfl
    rw [State.completed, State.readV_advance, State.readV_writeV_self, State.beginStep_dt]

/-- Settles O16: none of the three things a step can do writes keys or the parameters. -/
theorem stepsNeverWriteKeysOrParameters : Obligations.StepsNeverWriteKeysOrParameters := by
  unfold Obligations.StepsNeverWriteKeysOrParameters
  intro s t h
  obtain ⟨-, ⟨k, op, info, -, rfl⟩ | ⟨x, -, rfl⟩ | ⟨i, -, -, rfl⟩⟩ := step_cases h
  · exact ⟨rfl, rfl⟩
  · exact ⟨rfl, rfl⟩
  · obtain ⟨-, -, hcfg, hkeys, -⟩ := s.beginStep.completed_constants i
    exact ⟨hkeys, hcfg⟩

/-! ### ST -/

theorem State.setSt_writeBlock (s : State) (v : Byte) (base : Nat) (bytes : List Byte) :
    (s.setSt v).writeBlock base bytes = (s.writeBlock base bytes).setSt v := by
  induction bytes generalizing s base with
  | nil => rfl
  | cons b bytes ih => exact ih (s.writeByte base b) (base + 1)

theorem State.setSt_foldl_writeV (s : State) (v : Byte) (f : Reg → Byte) (regs : List Reg) :
    regs.foldl (fun t k => t.writeV k (f k)) (s.setSt v) = (regs.foldl (fun t k => t.writeV k (f k)) s).setSt v := by
  induction regs generalizing s with
  | nil => rfl
  | cons r regs ih => exact ih (s.writeV r (f r))

/-- No instruction reads ST (R25). -/
theorem State.completed_setSt (s : State) (v : Byte) (i : Instr) :
    ∃ w, (s.setSt v).completed i = (s.completed i).setSt w := by
  cases i with
  | ldStVx x => exact ⟨s.readV x, rfl⟩
  | ldB x | ldMemVx x => exact ⟨v, congrArg (State.advance · 2) (s.setSt_writeBlock v _ _)⟩
  | ldVxMem x => exact ⟨v, congrArg (State.advance · 2) (s.setSt_foldl_writeV v _ _)⟩
  | _ => exact ⟨v, rfl⟩

theorem faultIn_setSt (s : State) (v : Byte) (i : Instr) : Rules.faultIn (s.setSt v) i = Rules.faultIn s i := by
  cases i <;> rfl

theorem waitsIn_setSt (s : State) (v : Byte) (i : Instr) : Rules.waitsIn (s.setSt v) i = Rules.waitsIn s i := by
  cases i <;> rfl

theorem exec_setSt (v : Byte) (h : exec i s = .next t) : ∃ w, exec i (s.setSt v) = .next (t.setSt w) := by
  obtain ⟨t', ht', ⟨k, info, hf, rfl⟩ | ⟨hf, hw, rfl⟩ | ⟨hf, hw, rfl⟩⟩ := exec_cases i s
  all_goals cases ht'.symm.trans h
  · exact ⟨v, exec_of_fault ((faultIn_setSt s v i).trans hf)⟩
  · exact ⟨v, exec_of_waits ((waitsIn_setSt s v i).trans hw)⟩
  · obtain ⟨w, hset⟩ := s.completed_setSt v i
    exact ⟨w, hset ▸ exec_of_completes ((faultIn_setSt s v i).trans hf) ((waitsIn_setSt s v i).trans hw)⟩

/-- Settles O17: fetch and decode do not see ST, no instruction reads it, and the tick reads it for itself alone. -/
theorem soundTimerInfluencesNothing : Obligations.SoundTimerInfluencesNothing := by
  unfold Obligations.SoundTimerInfluencesNothing
  intro s t v h
  change ∃ w, step (s.setSt v) = .next (t.setSt w)
  obtain ⟨hrun, hd | ⟨i, u, hd, hu, hend⟩⟩ := step_next h
  · obtain ⟨bad, hf, hd'⟩ | ⟨op, hf, ⟨e, he, hd'⟩ | ⟨i, -, hd'⟩⟩ := s.beginStep.fetchDecode_cases
    all_goals cases hd'.symm.trans hd
    · exact ⟨v, step_of_fetch_error (s := s.setSt v) hrun hf⟩
    · exact ⟨v, step_of_malformed (s := s.setSt v) hrun hf he⟩
  · obtain ⟨w, hw⟩ := exec_setSt v hu
    have hd' : (s.setSt v).beginStep.fetchDecode = .ok i :=
      (State.fetchDecode_ok_congr (s := (s.setSt v).beginStep) (t := s.beginStep) rfl rfl rfl i).mpr hd
    have hstep : step (s.setSt v) = finishStep (.next (u.setSt w)) :=
      (step_of_fetchDecode (s := s.setSt v) hrun hd').trans (congrArg finishStep hw)
    obtain ⟨hstop, rfl⟩ | ⟨⟨hr, hwait⟩, rfl⟩ := hend
    · exact ⟨w, hstep.trans (finishStep_of_stops hstop)⟩
    · exact ⟨tickTimer w, hstep.trans (finishStep_of_completes hr hwait)⟩

end Sys2Proof.Machine
end

section
/-! SUPPORT. The invariant of every reachable state (10_state.md R45): a fault, a wait, a completed instruction and a move
of the host each keep it. -/

namespace Sys2Proof.Machine

variable {s t : State} {i : Instr}

/-! ### The step keeps it -/

/-- The cleared flags of the start of a step are the least the invariant asks of them (R81). -/
theorem State.Inv.beginStep (h : s.Inv) : s.beginStep.Inv :=
  ⟨h.memWf, h.pcLe, h.stackLe, h.errMatchesRun, rfl, fun hw => absurd hw Bool.false_ne_true⟩

/-- A fault writes run and err together (R190). -/
theorem State.Inv.raise (h : s.Inv) (hwait : s.waiting = false) {k : ErrKind} (hk : k ≠ .none) (op info : Word) :
    (s.raise k op info).Inv where
  memWf := h.memWf
  pcLe := h.pcLe
  stackLe := h.stackLe
  errMatchesRun := iff_of_false hk RunState.noConfusion
  dirtyForgotten := h.dirtyForgotten
  waitsAtKeyRead hw := absurd (hwait.symm.trans hw) Bool.false_ne_true

/-- A wait begins where the Fx0A was fetched (R154). -/
theorem State.Inv.await (h : s.Inv) (hrun : s.run = .running) {x : Reg} (hd : s.fetchDecode = .ok (.ldVxK x)) :
    s.await.Inv where
  memWf := h.memWf
  pcLe := h.pcLe
  stackLe := h.stackLe
  errMatchesRun := h.errMatchesRun
  dirtyForgotten := h.dirtyForgotten
  waitsAtKeyRead _ := ⟨hrun, x, (State.fetchDecode_ok_congr (s := s.await) (t := s) rfl rfl rfl _).mpr hd⟩

/-- An instruction that stores has checked its extent, so memory stays canonical (R55). -/
theorem State.memWf_completed (h : Memory.wf s.cfg.font s.mem = true) (hf : Rules.faultIn s i = none) :
    Memory.wf (s.completed i).cfg.font (s.completed i).mem = true := by
  rw [State.completed_cfg]
  cases i with
  | ldB x =>
    have hext := not_of_row_eq_none hf
    refine s.wf_writeBlock h ?_
    rw [length_decimalDigits, memSize]
    omega
  | ldMemVx x =>
    have hext := not_of_row_eq_none hf
    refine s.wf_writeBlock h ?_
    rw [List.length_map, length_regsUpTo, memSize]
    omega
  | ldVxMem x => exact (congrArg _ (State.loadRegs_mem ..)).trans h
  | _ => exact h

/-- The fetch succeeded, so pc is at most 0xFFE (R82). -/
theorem State.pc_le_of_fetchDecode (hd : s.fetchDecode = .ok i) : s.pc.toNat ≤ 0xFFE := by
  obtain ⟨hlt, -⟩ | ⟨-, hfetch⟩ := s.fetch_cases
  · omega
  · simp [State.fetchDecode, hfetch] at hd

/-- Every entry of the pc table is at most 0x10FE, the largest sum of JP V0 (R20). -/
theorem State.pcAfter_le (h : s.Inv) (hpc : s.pc.toNat ≤ 0xFFE) (hf : Rules.faultIn s i = none) :
    (Rules.pcAfter s i).toNat ≤ 0x10FE := by
  have hseq : (if Rules.skipCondition s i = some true then s.pc + 4 else s.pc + 2).toNat ≤ 0x10FE := by
    split <;> simp [BitVec.toNat_add] <;> omega
  cases i with
  | jp nnn | call nnn =>
    have hlt := nnn.isLt
    rw [Rules.pcAfter, toNat_tableAddress]
    omega
  | jpV0 nnn =>
    have hlt := nnn.isLt
    have hv := (s.readV 0).isLt
    rw [Rules.pcAfter, BitVec.toNat_ofNat]
    omega
  | ret =>
    have hsp := not_of_row_eq_none hf
    have hslot : s.stack[s.sp.val - 1].toNat ≤ 0xFFE :=
      h.stackLe ⟨s.sp.val - 1, by omega⟩ (show s.sp.val - 1 < s.sp.val by omega)
    have htwo : (2 : Word).toNat = 2 := rfl
    rw [Rules.pcAfter, Vector.getElem?_eq_getElem (by omega), Option.getD_some, BitVec.toNat_add, htwo]
    omega
  | _ => exact hseq

/-- The slots in use after an instruction were in use before, or hold the address CALL pushed (R99). -/
theorem State.stackLe_completed (h : s.Inv) (hpc : s.pc.toNat ≤ 0xFFE) (k : Fin 16)
    (hk : k.val < (s.completed i).sp.val) : (s.completed i).stack[k].toNat ≤ 0xFFE := by
  by_cases hcall : ∃ n, i = .call n
  · obtain ⟨n, rfl⟩ := hcall
    have hk : k.val < min 16 (s.sp.val + 1) := hk
    simp only [State.completed, Fin.getElem_fin, Vector.getElem_setIfInBounds]
    split
    · exact hpc
    · exact h.stackLe k (by omega)
  rw [s.completed_stack (fun n hn => hcall ⟨n, hn⟩)]
  by_cases hret : i = .ret
  · subst hret
    have hk : k.val < s.sp.val - 1 := hk
    exact h.stackLe k (by omega)
  · rw [s.completed_sp (fun n hn => hcall ⟨n, hn⟩) hret] at hk
    exact h.stackLe k hk

/-- A completed instruction, the tick and the notification (R81). -/
theorem State.Inv.completed (h : s.Inv) (hwait : s.waiting = false) (hd : s.fetchDecode = .ok i)
    (hf : Rules.faultIn s i = none) : (s.completed i).tick.notify.Inv where
  memWf := State.memWf_completed h.memWf hf
  pcLe := (congrArg BitVec.toNat (s.completed_pc hf)).trans_le
    (State.pcAfter_le h (State.pc_le_of_fetchDecode hd) hf)
  stackLe := State.stackLe_completed h (State.pc_le_of_fetchDecode hd)
  errMatchesRun := by simpa using h.errMatchesRun
  dirtyForgotten := rfl
  waitsAtKeyRead hw := absurd ((State.completed_waiting hwait i).symm.trans hw) Bool.false_ne_true

/-- Settles O52: the three things a step can do each keep the invariant of the state it starts from. -/
theorem stepKeepsTheInvariant : Obligations.StepKeepsTheInvariant := by
  unfold Obligations.StepKeepsTheInvariant
  intro s t h hstep
  obtain ⟨hrun, ⟨k, op, info, hrec, rfl⟩ | ⟨x, hd, -, rfl⟩ | ⟨i, hd, hf, -, rfl⟩⟩ := step_cases hstep
  · exact h.beginStep.raise rfl hrec.kind op info
  · exact h.beginStep.await hrun ((s.fetchDecode_beginStep_ok _).mpr hd)
  · exact h.beginStep.completed rfl ((s.fetchDecode_beginStep_ok _).mpr hd) hf

end Sys2Proof.Machine
end

section
/-! SUPPORT. Reset, load and the other moves of the host (10_state.md R34, R42 to R45; 70_reset_and_hazards.md R206 to
R212), and what holds of every reachable state. -/

namespace Sys2Proof.Machine

variable {s t : State}

/-! ### Reset and boot keep the invariant -/

theorem State.Inv.hostReset (s : State) : s.hostReset.Inv where
  memWf := rfl
  pcLe := show (0x200 : Word).toNat ≤ 0x10FE by decide
  stackLe _ hk := absurd hk (Nat.not_lt_zero _)
  errMatchesRun := iff_of_true rfl rfl
  dirtyForgotten := rfl
  waitsAtKeyRead hw := absurd hw Bool.false_ne_true

/-- An image that the loader accepts ends inside the address space (R43). -/
theorem State.Inv.loadProgram (image : List Byte) (h : s.hostReset.loadProgram image = some t) : t.Inv := by
  have hr := State.Inv.hostReset s
  obtain ⟨hlen, ht⟩ := Option.ite_none_right_eq_some.mp h
  cases ht
  rw [maxProg] at hlen
  refine ⟨?_, ?_, ?_, ?_, ?_, ?_⟩
  · rw [State.writeBlock_cfg]
    refine s.hostReset.wf_writeBlock hr.memWf ?_
    rw [progBase, memSize]
    omega
  · rw [State.writeBlock_pc]
    exact hr.pcLe
  · rw [State.writeBlock_stack, State.writeBlock_sp]
    exact hr.stackLe
  · rw [State.writeBlock_err, State.writeBlock_run]
    exact hr.errMatchesRun
  · rw [State.writeBlock_dirty]
    rfl
  · rw [State.writeBlock_waiting]
    exact fun hw => absurd hw Bool.false_ne_true

/-- What the host puts on its inputs and in the latch is not read by the invariant (R42). -/
theorem State.Inv.withInputs (h : s.Inv) (keys : Vector Bool 16) (keyIn : List (BitVec 4)) (randIn : List Byte) :
    { s with keys := keys, keyIn := keyIn, randIn := randIn }.Inv where
  memWf := h.memWf
  pcLe := h.pcLe
  stackLe := h.stackLe
  errMatchesRun := h.errMatchesRun
  dirtyForgotten := h.dirtyForgotten
  waitsAtKeyRead hw := by
    obtain ⟨hrun, x, hd⟩ := h.waitsAtKeyRead hw
    refine ⟨hrun, x, (State.fetchDecode_ok_congr ?_ ?_ ?_ _).mpr hd⟩ <;> rfl

/-- Settles O53: the three inputs touch nothing the invariant reads, and reset and boot start afresh. -/
theorem hostMovesKeepTheInvariant : Obligations.HostMovesKeepTheInvariant := by
  unfold Obligations.HostMovesKeepTheInvariant
  intro m s t h hm
  cases m with
  | setKeys keys =>
    cases hm
    exact h.withInputs keys s.keyIn s.randIn
  | answerKey k =>
    cases hm
    exact h.withInputs s.keys (s.keyIn ++ [k]) s.randIn
  | supplyRandom r =>
    cases hm
    exact h.withInputs s.keys s.keyIn (s.randIn ++ [r])
  | reset =>
    obtain ⟨-, ht⟩ := Option.ite_none_left_eq_some.mp hm
    cases ht
    exact .hostReset s
  | boot image =>
    obtain ⟨-, ht⟩ := Option.ite_none_left_eq_some.mp hm
    exact .loadProgram image ht

/-- Settles O51: a reset from a state just reset is no change. -/
theorem resetMeetsTheInvariant : Obligations.ResetMeetsTheInvariant := by
  unfold Obligations.ResetMeetsTheInvariant
  exact fun cfg => State.Inv.hostReset (State.resetWith cfg)

/-! ### Every reachable state -/

theorem Reachable.inv (h : Reachable s) : s.Inv := by
  induction h with
  | reset cfg => exact resetMeetsTheInvariant cfg
  | step _ hstep ih => exact stepKeepsTheInvariant _ _ ih hstep
  | host m _ hm ih => exact hostMovesKeepTheInvariant m _ _ ih hm

/-- A running machine's step is a next state: exec always answers one (log 6, 10). -/
theorem exists_step_of_running (hrun : s.run = .running) : ∃ t, step s = .next t := by
  cases hd : s.beginStep.fetchDecode with
  | error t => exact ⟨t, step_of_fetchDecode_error hrun hd⟩
  | ok i =>
    obtain ⟨t, ht, -⟩ := exec_cases i s.beginStep
    rw [step_of_fetchDecode hrun hd, ht]
    by_cases hstop : t.run = .halted ∨ t.waiting = true
    · exact ⟨t, finishStep_of_stops hstop⟩
    · exact ⟨t.tick.notify, if_neg hstop⟩

/-- Settles O54: the invariant bounds pc and records the fault, and only HALTED has no step. -/
theorem reachableMachinesStopOnlyHalted : Obligations.ReachableMachinesStopOnlyHalted := by
  unfold Obligations.ReachableMachinesStopOnlyHalted
  intro s hs
  have hinv := hs.inv
  refine ⟨hinv.pcLe, exists_step_of_running, ?_⟩
  cases hrun : s.run with
  | running =>
    obtain ⟨t, ht⟩ := exists_step_of_running hrun
    simp [ht]
  | halted =>
    have herr : s.err.kind ≠ .none := fun hk => by cases hrun.symm.trans (hinv.errMatchesRun.mp hk)
    simp [haltedMachineHasNoStep s hrun, herr]

/-! ### Reset and boot -/

/-- After reset memory reads FONT, then 0 (R34). -/
theorem State.readByte_resetWith (cfg : Config) (a : Nat) :
    (State.resetWith cfg).readByte a = Memory.initial cfg.font a := rfl

/-- Settles O50: every field is read off the reset state. -/
theorem resetValues : Obligations.ResetValues := by
  unfold Obligations.ResetValues
  refine ⟨rfl, rfl, rfl, fun cfg => ?_⟩
  refine ⟨State.readByte_resetWith cfg, fun r => ?_, rfl, rfl, rfl, fun k => ?_, rfl, rfl, fun row col => ?_, fun k => ?_,
    rfl, rfl, rfl⟩
  · exact Vector.getElem_replicate _
  · exact Vector.getElem_replicate _
  · exact Framebuffer.pixel_clear row col
  · exact Vector.getElem_replicate _

/-- Settles O55: boot stores the image as one block over the reset memory, where it fits. -/
theorem bootPlacesTheImage : Obligations.BootPlacesTheImage := by
  unfold Obligations.BootPlacesTheImage
  intro s image
  refine ⟨fun hlen => ⟨_, if_pos hlen, State.writeBlock_frame .., fun a => ?_⟩, fun hlen => if_neg (Nat.not_le.mpr hlen)⟩
  exact s.hostReset.readByte_writeBlock progBase a image

/-- Settles O56: reset does not look at the fields it sets. -/
theorem hostResetRestoresTheResetState : Obligations.HostResetRestoresTheResetState := by
  unfold Obligations.HostResetRestoresTheResetState
  intro s hwait
  exact ⟨s.hostReset, if_neg (by simp [hwait]), rfl, rfl⟩

end Sys2Proof.Machine
end

section
/-! SUPPORT. SYS, CALL and RET (41_flow.md R96, R97, R99, R101) and the two skips on registers (42_skip.md R108, R109). -/

namespace Sys2Proof.Machine

/-! ### SYS, CALL, RET -/

/-- Settles O22: SYS faults exactly under FAULT, and otherwise advances. -/
theorem sysFollowsItsPolicy : Obligations.SysFollowsItsPolicy := by
  unfold Obligations.SysFollowsItsPolicy
  intro nnn s
  refine ⟨fun hp => ?_, fun hp => ⟨nnn.setWidth 16, toNat_tableAddress nnn, ?_⟩⟩
  · simp only [exec, execSys, hp]
    rfl
  · have hf : Rules.faultIn s (.sys nnn) = some (.malformedOpcode, nnn.setWidth 16) := if_pos hp
    rw [exec_of_fault hf, encode_sys]
    rfl

/-- CALL with a free slot pushes pc and jumps (R99). -/
theorem exec_call_of_lt (nnn : Index) {s : State} (h : s.sp.val < 16) :
    exec (.call nnn) s = .next { s with
      stack := s.stack.set s.sp.val s.pc h, sp := ⟨s.sp.val + 1, by omega⟩, pc := nnn.setWidth 16 } := by
  simp only [exec, execCall, State.push, dif_pos h]
  rfl

/-- RET with a slot in use pops it and adds 2 (R97). -/
theorem exec_ret_of_pos {s : State} (h : 0 < s.sp.val) :
    exec .ret s =
      .next { s with pc := s.stack[s.sp.val - 1] + 2, sp := ⟨s.sp.val - 1, by omega⟩ } := by
  simp only [exec, execRet, State.pop, dif_pos h]
  rfl

/-- Settles O25: a CALL writes the slot at sp and no other, or finds the stack full. -/
theorem callPushesItsOwnAddress : Obligations.CallPushesItsOwnAddress := by
  unfold Obligations.CallPushesItsOwnAddress
  intro nnn s
  refine ⟨fun h => ⟨_, exec_call_of_lt nnn h, rfl, toNat_tableAddress nnn, rfl, ?_, fun k hk => ?_⟩,
    fun hfull => exec_of_fault (if_pos hfull)⟩
  · exact Vector.getElem_set_self ..
  · exact Vector.getElem_set_ne h _ hk.symm

/-- Settles O26: a RET reads the slot below sp and leaves the stack alone, or finds it empty. -/
theorem returnPopsAndAddsTwo : Obligations.ReturnPopsAndAddsTwo := by
  unfold Obligations.ReturnPopsAndAddsTwo
  intro s
  exact ⟨fun h => ⟨_, exec_ret_of_pos h, rfl, rfl⟩, fun hempty => exec_of_fault (if_pos hempty)⟩

/-- Settles O27: the slot below the sp that CALL left is the one it pushed. -/
theorem returnUndoesCall : Obligations.ReturnUndoesCall := by
  unfold Obligations.ReturnUndoesCall
  intro nnn s t m h hcall hsp hslot
  cases (exec_call_of_lt nnn h).symm.trans hcall
  have hm : m.sp.val = s.sp.val + 1 := congrArg Fin.val hsp
  have hpushed : m.stack[m.sp.val - 1] = s.pc := by
    simp only [hm, Nat.add_sub_cancel]
    exact hslot.trans (Vector.getElem_set_self ..)
  refine ⟨_, exec_ret_of_pos (by omega), congrArg (· + 2) hpushed, Fin.ext ?_⟩
  simp only [hm, Nat.add_sub_cancel]

/-! ### SE and SNE on registers -/

theorem exec_seReg (x y : Reg) (i : BitVec 4) (s : State) :
    exec (.seReg x y i) s = .next (s.skipIf (s.readV x == s.readV y)) := rfl

theorem exec_sneReg (x y : Reg) (i : BitVec 4) (s : State) :
    exec (.sneReg x y i) s = .next (s.skipIf (s.readV x != s.readV y)) := rfl

/-- Settles O29: the two test complementary conditions, and the nibble is not looked at. -/
theorem registerSkips : Obligations.RegisterSkips := by
  unfold Obligations.RegisterSkips
  intro x y i j s
  rw [exec_seReg, exec_sneReg]
  refine ⟨fun heq => ⟨?_, ?_⟩, fun hne => ⟨?_, ?_⟩⟩
  · rw [State.skipIf_of_true (beq_iff_eq.mpr heq)]
  · rw [State.skipIf_of_false (bne_eq_false_iff_eq.mpr heq)]
  · rw [State.skipIf_of_false (beq_eq_false_iff_ne.mpr hne)]
  · rw [State.skipIf_of_true (bne_iff_ne.mpr hne)]

end Sys2Proof.Machine
end

section
/-! SUPPORT. RND (43_immediate.md R116), family 8 (44_alu.md R120 to R129) and ADD I, Vx (47_timers_index.md R162). -/

namespace Sys2Proof.Machine

/-! ### RND -/

theorem exec_rnd (x : Reg) (kk : Byte) (s : State) :
    exec (.rnd x kk) s = .next ((s.afterDraw.writeV x (s.randomByte &&& kk)).advance 2) := rfl

/-- The byte the host supplied next is the one drawn (R38). -/
theorem State.randomByte_of_head? {s : State} {r : Byte} (h : s.randIn.head? = some r) : s.randomByte = r := by
  rw [State.randomByte, List.headD_eq_head?_getD, h]
  rfl

/-- Settles O31: Vx takes the drawn byte masked, and the draw moves the random input alone. -/
theorem randomByteIsDrawnAndMasked : Obligations.RandomByteIsDrawnAndMasked := by
  unfold Obligations.RandomByteIsDrawnAndMasked
  intro x kk s
  refine ⟨s.randomByte, _, exec_rnd x kk s, rfl, ?_, fun q hq => ?_, fun r' => State.randomByte_of_head?⟩
  · rw [State.readV_advance, State.readV_writeV_self]
  · rw [State.readV_advance_writeV_of_ne _ 2 _ hq, State.readV_afterDraw]

/-! ### The two shapes of family 8 -/

/-- Vx and pc: what the instructions without a flag do (R121 to R124). -/
theorem State.aluPlain_next (s : State) (x : Reg) (result : Byte) :
    ∃ t, s.aluPlain x result = .next t ∧ t = { s with V := t.V, pc := s.pc + 2 } ∧ t.readV x = result ∧
      ∀ r, r ≠ x → t.readV r = s.readV r := by
  refine ⟨_, rfl, rfl, ?_, fun r hr => s.readV_advance_writeV_of_ne 2 result hr⟩
  rw [State.readV_advance, State.readV_writeV_self]

/-- Vx, then VF, and pc: with x = F the flag is what stays (R120). -/
theorem State.aluFlag_next (s : State) (x : Reg) (result : Byte) (flag : Bool) :
    ∃ t, s.aluFlag x result flag = .next t ∧ t = { s with V := t.V, pc := s.pc + 2 } ∧
      (x ≠ 15 → t.readV x = result) ∧ t.readV 15 = Byte.ofFlag flag ∧
      ∀ r, r ≠ x → r ≠ 15 → t.readV r = s.readV r := by
  refine ⟨_, rfl, rfl, fun hx => ?_, ?_, fun r hx hvf => ?_⟩
  · rw [State.readV_advance, State.readV_writeFlag, if_neg hx, State.readV_writeV_self]
  · rw [State.readV_advance, State.readV_writeFlag, if_pos rfl]
  · rw [State.readV_advance, s.readV_writeFlag_writeV x r result flag hx hvf]

/-- Settles O32: each of the four is the flagless shape with its own result. -/
theorem assignAndLogic : Obligations.AssignAndLogic := by
  unfold Obligations.AssignAndLogic
  rintro x y s i result (⟨rfl, rfl⟩ | ⟨rfl, rfl⟩ | ⟨rfl, rfl⟩ | ⟨rfl, rfl⟩)
  all_goals exact s.aluPlain_next x _

/-- The flagged shape, with the result and the flag as numbers. -/
theorem State.aluFlag_next_toNat (s : State) (x : Reg) {v : Byte} {b : Bool} {result flag : Nat}
    (hv : v.toNat = result) (hb : (Byte.ofFlag b).toNat = flag) :
    ∃ t, s.aluFlag x v b = .next t ∧ t = { s with V := t.V, pc := s.pc + 2 } ∧
      (x ≠ 15 → (t.readV x).toNat = result) ∧ (t.readV 15).toNat = flag ∧
      ∀ r, r ≠ x → r ≠ 15 → t.readV r = s.readV r := by
  obtain ⟨t, ht, hframe, hx, hvf, hother⟩ := s.aluFlag_next x v b
  exact ⟨t, ht, hframe, fun h => (congrArg BitVec.toNat (hx h)).trans hv, (congrArg BitVec.toNat hvf).trans hb, hother⟩

@[simp] theorem toNat_ofFlag (b : Bool) : (Byte.ofFlag b).toNat = b.toNat := by
  cases b <;> rfl

theorem toNat_ofFlag_decide (p : Prop) [Decidable p] : (Byte.ofFlag (decide p)).toNat = if p then 1 else 0 := by
  by_cases h : p <;> simp [h]

/-- Settles O33: the results and flags of R125, R126 and R128 as numbers. -/
theorem addAndSubtractWithFlag : Obligations.AddAndSubtractWithFlag := by
  unfold Obligations.AddAndSubtractWithFlag
  rintro x y s i result flag (⟨rfl, rfl, rfl⟩ | ⟨rfl, rfl, rfl⟩ | ⟨rfl, rfl, rfl⟩)
  · exact s.aluFlag_next_toNat x (toNat_addResult _ _) (toNat_ofFlag_decide _)
  · exact s.aluFlag_next_toNat x (toNat_subResult_cases _ _) (toNat_ofFlag_decide _)
  · exact s.aluFlag_next_toNat x (toNat_subResult_cases _ _) (toNat_ofFlag_decide _)

/-! ### The shifts -/

theorem toNat_ofFlag_shrOut (v : Byte) : (Byte.ofFlag (shrOut v)).toNat = v.toNat % 2 := by
  have hbit : shrOut v = decide (v.toNat % 2 = 1) := by rw [Bool.eq_iff_iff, shrOut_iff, decide_eq_true_iff]
  rw [hbit, toNat_ofFlag_decide]
  split <;> omega

theorem toNat_ofFlag_shlOut (v : Byte) : (Byte.ofFlag (shlOut v)).toNat = v.toNat / 128 := by
  have hbit : shlOut v = decide (v.toNat ≥ 128) := by rw [Bool.eq_iff_iff, shlOut_iff, decide_eq_true_iff]
  rw [hbit, toNat_ofFlag_decide]
  split <;> omega

/-- The source of a shift is the register the parameter names (D7). -/
theorem State.toNat_shiftOperand {s : State} {x y : Reg} {v : Nat}
    (h : (s.cfg.shiftSource = .vx ∧ v = (s.readV x).toNat) ∨ (s.cfg.shiftSource = .vy ∧ v = (s.readV y).toNat)) :
    (s.shiftOperand x y).toNat = v := by
  obtain ⟨hsrc, rfl⟩ | ⟨hsrc, rfl⟩ := h
  all_goals simp only [State.shiftOperand, hsrc]

/-- Settles O34: both shifts have the flagged shape on the source the parameter names. -/
theorem shiftsWithFlag : Obligations.ShiftsWithFlag := by
  unfold Obligations.ShiftsWithFlag
  intro x y s v hsrc
  obtain rfl := State.toNat_shiftOperand hsrc
  exact ⟨s.aluFlag_next_toNat x (toNat_shrResult _) (toNat_ofFlag_shrOut _),
    s.aluFlag_next_toNat x (toNat_shlResult _) (toNat_ofFlag_shlOut _)⟩

/-! ### ADD I, Vx -/

theorem exec_addI (x : Reg) (s : State) :
    exec (.addI x) s =
      .next (((s.setI (indexAddResult s.I (s.readV x))).writeFlag (indexAddCarry s.I (s.readV x))).advance 2) := rfl

/-- Settles O42: the sum and its carry are of the values before, and VF is the only register written. -/
theorem addToIndexWrapsWithFlag : Obligations.AddToIndexWrapsWithFlag := by
  unfold Obligations.AddToIndexWrapsWithFlag
  intro x s
  refine ⟨_, exec_addI x s, rfl, toNat_indexAddResult s.I (s.readV x), ?_, fun r hr => ?_⟩
  · rw [State.readV_advance, State.readV_writeFlag, if_pos rfl]
    exact toNat_ofFlag_decide _
  · rw [State.readV_advance, State.readV_writeFlag, if_neg hr, State.readV_setI]

end Sys2Proof.Machine
end

section
/-! SUPPORT. The key instructions (46_keys.md R151 to R154). -/

namespace Sys2Proof.Machine

/-! ### SKP and SKNP -/

/-- The two key skips below 16 test the same key for opposite values (R152, R153). -/
theorem exec_skp_of_lt {x : Reg} {s : State} (h : (s.readV x).toNat < 16) :
    exec (.skp x) s = .next (s.skipIf s.keys[(s.readV x).toNat]) := by
  rw [exec, execSkp, State.keyPressed, Vector.getElem?_eq_getElem h]

theorem exec_sknp_of_lt {x : Reg} {s : State} (h : (s.readV x).toNat < 16) :
    exec (.sknp x) s = .next (s.skipIf !s.keys[(s.readV x).toNat]) := by
  rw [exec, execSknp, State.keyPressed, Vector.getElem?_eq_getElem h]

/-- Settles O38: below 16 each tests the key, above 15 its row of the fault table names KeyIndexViolation(Vx). -/
theorem keySkips : Obligations.KeySkips := by
  unfold Obligations.KeySkips
  intro x s
  refine ⟨fun h => ⟨exec_skp_of_lt h, ?_⟩, fun h => ⟨(s.readV x).setWidth 16, ?_, ?_, ?_⟩⟩
  · rw [exec_sknp_of_lt h]
    cases s.keys[(s.readV x).toNat] <;> rfl
  · rw [BitVec.toNat_setWidth]
    omega
  · exact exec_of_fault (if_pos h)
  · exact exec_of_fault (if_pos h)

/-! ### LD Vx, K -/

theorem exec_ldVxK_of_cons (x : Reg) {s : State} {k : BitVec 4} {rest : List (BitVec 4)} (h : s.keyIn = k :: rest) :
    exec (.ldVxK x) s = .next ((s.answered.writeV x (k.setWidth 8)).advance 2) := by
  simp only [exec, execLdVxK, h]

theorem exec_ldVxK_of_nil (x : Reg) {s : State} (h : s.keyIn = []) : exec (.ldVxK x) s = .next s.await := by
  simp only [exec, execLdVxK, h]

theorem toNat_keyAnswer (k : BitVec 4) : (k.setWidth 8).toNat = k.toNat := by
  rw [BitVec.toNat_setWidth]
  omega

/-- Settles O39: the answer at the head of the queue goes to Vx. -/
theorem keyReadTakesTheAnswer : Obligations.KeyReadTakesTheAnswer := by
  unfold Obligations.KeyReadTakesTheAnswer
  intro x s k rest h
  refine ⟨_, exec_ldVxK_of_cons x h, ?_, ?_, fun r hr => ?_⟩
  · simp only [State.advance, State.setPc, State.writeV, State.answered, h, List.tail_cons]
  · rw [State.readV_advance, State.readV_writeV_self, toNat_keyAnswer]
  · rw [State.readV_advance_writeV_of_ne _ 2 _ hr, State.readV_answered]

/-- A step at an Fx0A with no answer only waits (R154). -/
theorem step_of_ldVxK_unanswered {x : Reg} {s : State} (hrun : s.run = .running)
    (hd : s.fetchDecode = .ok (.ldVxK x)) (hin : s.keyIn = []) : step s = .next s.beginStep.await := by
  rw [step_of_fetchDecode hrun ((s.fetchDecode_beginStep_ok _).mpr hd), exec_ldVxK_of_nil x (s := s.beginStep) hin]
  exact finishStep_of_stops (.inr rfl)

/-- With the answer k there it completes, ticks and notifies (R154, R85, R86). -/
theorem step_of_ldVxK_answered {x : Reg} {s : State} {k : BitVec 4} {rest : List (BitVec 4)} (hrun : s.run = .running)
    (hd : s.fetchDecode = .ok (.ldVxK x)) (hin : s.keyIn = k :: rest) :
    step s = .next ((s.beginStep.answered.writeV x (k.setWidth 8)).advance 2).tick.notify := by
  rw [step_of_fetchDecode hrun ((s.fetchDecode_beginStep_ok _).mpr hd), exec_ldVxK_of_cons x (s := s.beginStep) hin]
  exact finishStep_of_completes hrun rfl

/-- Settles O40: a waiting step, the host's answer, and the step that takes it. -/
theorem keyReadHoldsUntilAnswered : Obligations.KeyReadHoldsUntilAnswered := by
  unfold Obligations.KeyReadHoldsUntilAnswered
  intro x s k hrun hd hin
  have hdec : { s.beginStep.await with keyIn := s.keyIn ++ [k] }.fetchDecode = .ok (.ldVxK x) := by
    refine (State.fetchDecode_ok_congr (t := s) ?_ ?_ ?_ _).mpr hd <;> rfl
  have hans : { s.beginStep.await with keyIn := s.keyIn ++ [k] }.keyIn = k :: [] := by rw [hin]; rfl
  refine ⟨_, _, _, step_of_ldVxK_unanswered hrun hd hin, rfl, rfl, step_of_ldVxK_answered hrun hdec hans, ?_, ?_,
    fun r hr => ?_, toNat_tickTimer s.dt, toNat_tickTimer s.st⟩
  · simp only [State.notify, State.tick, State.advance, State.setPc, State.writeV, State.answered, State.beginStep,
      State.await, hin]
    rfl
  · rw [State.readV_notify, State.readV_tick, State.readV_advance, State.readV_writeV_self, toNat_keyAnswer]
  · rw [State.readV_notify, State.readV_tick, State.readV_advance_writeV_of_ne _ 2 _ hr]
    rfl

end Sys2Proof.Machine
end

section
/-! SUPPORT. DRW (45_display.md R137 to R141). -/

namespace Sys2Proof.Machine

variable {x y : Reg} {n : Fin 16} {s : State}

/-- With its bytes in range DRW draws (R137). -/
theorem exec_drw_of_inRange (h : n.val = 0 ∨ s.I.toNat + n.val - 1 ≤ 0xFFF) :
    exec (.drw x y n) s = .next (s.drawSprite x y n.val) :=
  exec_of_completes (if_neg (by omega)) rfl

theorem State.readV_vf_drawSprite_of_collides {k : Nat} (h : s.collides x y k) : (s.drawSprite x y k).readV 15 = 1 := by
  classical
  rw [State.readV_drawSprite, if_pos rfl, decide_eq_true h]
  rfl

theorem State.readV_vf_drawSprite_of_not_collides {k : Nat} (h : ¬ s.collides x y k) :
    (s.drawSprite x y k).readV 15 = 0 := by
  classical
  rw [State.readV_drawSprite, if_pos rfl, decide_eq_false h]
  rfl

/-- Settles O36: the draw inverts the pixels its sprite covers, and VF says whether one of them was on. -/
theorem drawXorsTheSprite : Obligations.DrawXorsTheSprite := by
  unfold Obligations.DrawXorsTheSprite
  intro x y n s h
  exact ⟨_, exec_drw_of_inRange h, s.drawSprite_frame x y n.val, s.pixel_drawSprite x y n.val,
    State.readV_vf_drawSprite_of_collides, State.readV_vf_drawSprite_of_not_collides,
    fun _ => s.readV_drawSprite_of_ne x y n.val⟩

/-- The sprite depends on I, the coordinates and the sprite's bytes alone (R137). -/
theorem State.spriteBit_congr {m : State} {k : Nat} (hI : m.I = s.I) (hx : m.readV x = s.readV x)
    (hy : m.readV y = s.readV y) (hbytes : ∀ j, j < k → m.readByte (s.I.toNat + j) = s.readByte (s.I.toNat + j))
    (row col : Nat) : m.spriteBit x y k row col = s.spriteBit x y k row col := by
  unfold State.spriteBit
  rw [hI, hx, hy]
  by_cases hrow : (s.readV y).toNat ≤ row ∧ row < (s.readV y).toNat + k
  · rw [hbytes _ (by omega)]
  · have hout : ¬ ((s.readV y).toNat ≤ row ∧ row < (s.readV y).toNat + k ∧ (s.readV x).toNat ≤ col ∧
        col < (s.readV x).toNat + 8) := fun h => hrow ⟨h.1, h.2.1⟩
    simp [hout]

/-- Settles O37: a second XOR with the same sprite undoes the first, and it collides where the first turned a pixel on. -/
theorem drawTwiceRestores : Obligations.DrawTwiceRestores := by
  unfold Obligations.DrawTwiceRestores
  intro x y n s t m h ht hfb hI hx hy hbytes
  cases (exec_drw_of_inRange h).symm.trans ht
  have hbit := State.spriteBit_congr (k := n.val) hI hx hy hbytes
  have hpixel (row : Fin 32) (col : Fin 64) : m.fb[row][col] = (s.fb[row][col] ^^ s.spriteBit x y n.val row col) := by
    rw [hfb, s.pixel_drawSprite]
  have hcollides : m.collides x y n.val ↔
      ∃ (row : Fin 32) (col : Fin 64), s.fb[row][col] = false ∧ (s.drawSprite x y n.val).fb[row][col] = true := by
    unfold State.collides
    refine exists_congr fun row => exists_congr fun col => ?_
    rw [hbit, hpixel, s.pixel_drawSprite]
    cases s.fb[row][col] <;> simp
  refine ⟨_, exec_drw_of_inRange (hI ▸ h), Framebuffer.ext_pixel fun row col => ?_, ?_⟩
  · rw [m.pixel_drawSprite, hpixel, hbit, Bool.xor_assoc, Bool.xor_self, Bool.xor_false]
  · rw [← hcollides]
    by_cases hc : m.collides x y n.val
    · simp [State.readV_vf_drawSprite_of_collides hc, hc]
    · simp [State.readV_vf_drawSprite_of_not_collides hc, hc]

end Sys2Proof.Machine
end

section
/-! SUPPORT. Memory transfer (48_memory_transfer.md R168 to R172), and the fetch of what a store left (20_memory.md R60). -/

namespace Sys2Proof.Machine

variable {x : Reg} {s : State}

/-! ### The three transfers, their extent in range -/

theorem exec_ldB_of_inRange (h : s.I.toNat + 2 ≤ 0xFFF) :
    exec (.ldB x) s = .next ((s.writeBlock s.I.toNat (decimalDigits (s.readV x))).advance 2) :=
  exec_of_completes (if_neg (by omega)) rfl

theorem exec_ldMemVx_of_inRange (h : s.I.toNat + x.val ≤ 0xFFF) :
    exec (.ldMemVx x) s = .next ((s.writeBlock s.I.toNat ((regsUpTo x).map s.readV)).advance 2) :=
  exec_of_completes (if_neg (by omega)) rfl

theorem exec_ldVxMem_of_inRange (h : s.I.toNat + x.val ≤ 0xFFF) :
    exec (.ldVxMem x) s = .next ((s.loadRegs (regsUpTo x)).advance 2) :=
  exec_of_completes (if_neg (by omega)) rfl

/-- A store moves memory and pc, nothing else (R169, R170). -/
theorem State.advance_writeBlock_frame (s : State) (base : Nat) (vs : List Byte) :
    (s.writeBlock base vs).advance 2 = { s with mem := ((s.writeBlock base vs).advance 2).mem, pc := s.pc + 2 } := by
  rw [State.writeBlock_frame]
  rfl

/-- A load moves registers and pc, nothing else (R171). -/
theorem State.advance_loadRegs_frame (s : State) (regs : List Reg) :
    (s.loadRegs regs).advance 2 = { s with V := ((s.loadRegs regs).advance 2).V, pc := s.pc + 2 } := by
  rw [State.loadRegs_frame]
  rfl

/-! ### LD B, Vx -/

/-- The k-th byte of a stored block (R48). -/
theorem State.readByte_writeBlock_of_getElem? (s : State) {base k : Nat} {vs : List Byte} {v : Byte}
    (h : vs[k]? = some v) : (s.writeBlock base vs).readByte (base + k) = v := by
  rw [State.readByte_writeBlock, if_pos (Nat.le_add_right base k), Nat.add_sub_cancel_left, h]
  rfl

/-- Settles O44: the three digits are one block of three bytes, each below 256. -/
theorem decimalDigitsAreStored : Obligations.DecimalDigitsAreStored := by
  unfold Obligations.DecimalDigitsAreStored
  intro x s h
  have hv := (s.readV x).isLt
  have hdigit (k : Nat) (v : Byte) (hk : (decimalDigits (s.readV x))[k]? = some v) :=
    s.readByte_writeBlock_of_getElem? (base := s.I.toNat) hk
  have hhundreds := hdigit 0 _ rfl
  rw [Nat.add_zero] at hhundreds
  refine ⟨_, exec_ldB_of_inRange h, s.advance_writeBlock_frame _ _, ?_, ?_, ?_, fun a => s.readByte_completed_ldB x⟩
  · rw [State.readByte_advance, hhundreds, BitVec.toNat_ofNat]
    omega
  · rw [State.readByte_advance, hdigit 1 _ rfl, BitVec.toNat_ofNat]
    omega
  · rw [State.readByte_advance, hdigit 2 _ rfl, BitVec.toNat_ofNat]
    omega

/-! ### LD [I], Vx and LD Vx, [I] -/

/-- Vk stands at I + k after the store (R170). -/
theorem State.readByte_storeRegs_of_le (s : State) {k : Reg} (h : k.val ≤ x.val) :
    (s.writeBlock s.I.toNat ((regsUpTo x).map s.readV)).readByte (s.I.toNat + k.val) = s.readV k := by
  refine s.readByte_writeBlock_of_getElem? ?_
  rw [State.getElem?_storedRegs, dif_pos h]

/-- Settles O45: the stored block is V0..Vx. -/
theorem registersAreStored : Obligations.RegistersAreStored := by
  unfold Obligations.RegistersAreStored
  intro x s h
  exact ⟨_, exec_ldMemVx_of_inRange h, s.advance_writeBlock_frame _ _, fun _ => s.readByte_storeRegs_of_le,
    fun a => s.readByte_completed_ldMemVx x⟩

/-- Settles O46: each of V0..Vx is loaded from its own address, the others stay. -/
theorem registersAreLoaded : Obligations.RegistersAreLoaded := by
  unfold Obligations.RegistersAreLoaded
  intro x s h
  refine ⟨_, exec_ldVxMem_of_inRange h, s.advance_loadRegs_frame _, fun k hk => ?_, fun k hk => ?_⟩
  · rw [State.readV_advance, State.readV_loadRegs, if_pos hk]
  · rw [State.readV_advance, State.readV_loadRegs, if_neg (Nat.not_le.mpr hk)]

/-- Settles O48: the load reads at I + k what the store put there. -/
theorem storeThenLoadRestores : Obligations.StoreThenLoadRestores := by
  unfold Obligations.StoreThenLoadRestores
  intro x s t m h ht hI hbytes
  cases (exec_ldMemVx_of_inRange h).symm.trans ht
  refine ⟨_, exec_ldVxMem_of_inRange (hI ▸ h), fun k hk => ?_⟩
  rw [State.readV_advance, State.readV_loadRegs, if_pos hk, hI, hbytes k hk, State.readByte_advance,
    s.readByte_storeRegs_of_le hk]

/-- Settles O49: the two bytes at I after the store are V0 and V1, and the fetch there is in range. -/
theorem storedWordIsTheOneFetched : Obligations.StoredWordIsTheOneFetched := by
  unfold Obligations.StoredWordIsTheOneFetched
  intro x s t hx h ht
  cases (exec_ldMemVx_of_inRange h).symm.trans ht
  refine ⟨State.writeBlock_run .., fun u hpc hmem hcfg => ?_⟩
  have hread (a : Nat) :
      u.readByte a = (s.writeBlock s.I.toNat ((regsUpTo x).map s.readV)).readByte a := by
    rw [State.readByte, hmem, hcfg]
    rfl
  have hI : u.pc.toNat = s.I.toNat := hpc ▸ toNat_tableAddress s.I
  have h0 := s.readByte_storeRegs_of_le (x := x) (k := 0) (Nat.zero_le _)
  have h1 := s.readByte_storeRegs_of_le (x := x) (k := 1) hx
  rw [State.fetch_of_pc_lt (by omega), hread, hread, hI]
  exact congrArg Except.ok (congrArg₂ wordOfBytes h0 h1)

end Sys2Proof.Machine
end
